-- ==== Sys2Proof/Word.lean ====
section
/-! DEFINITION. The words of the block: bytes, 32-bit host data, 12-bit offsets (00_scope.md R7, R11; 20_memory.md R73). -/

namespace Sys2Proof

/-- A byte, 0..255 (00_scope.md R11). -/
abbrev Byte := BitVec 8

/-- The host data word, DW = 32 bits (00_scope.md R7, 20_memory.md R73). -/
abbrev Word := BitVec 32

/-- A 12-bit byte offset into the host register space (20_memory.md R73). -/
abbrev Offset := BitVec 12

end Sys2Proof
end

