-- ==== Sys2Proof/Machine/Operands.lean ====
section
/-! DEFINITION. Operand assembly (30_encoding.md R108), the wire forms of a byte (30_encoding.md R100, R101) and the
placing of fields in a read result. -/

namespace Sys2Proof.Machine

/-- The byte operand `v[7:0]`, and the command code of CMD (30_encoding.md R108). -/
def byteOperand (v : Word) : Byte := v.extractLsb' 0 8

/-- The address operand `v[6:0]` of TX_ADDR (30_encoding.md R108). -/
def addrOperand (v : Word) : BitVec 7 := v.extractLsb' 0 7

/-- The flag operand `v[0]` of FR_CTRL (30_encoding.md R108). -/
def flagOperand (v : Word) : Bool := v.getLsbD 0

/-- The clear mask `v[4:0]` of HERR (30_encoding.md R108). -/
def maskOperand (v : Word) : BitVec 5 := v.extractLsb' 0 5

/-- The budget operand `v[31:0]` of FR_TIMEOUT (30_encoding.md R108). -/
def budgetOperand (v : Word) : Word := v

/-- The access is word aligned: `off[1:0]` is 0 (20_memory.md R74). -/
def aligned (off : Offset) : Bool := off.extractLsb' 0 2 == 0#2

/-- The marker of a byte, its bit 7 (30_encoding.md R101). -/
def marker (b : Byte) : Bool := b.getLsbD 7

/-- The low seven bits of a byte: the logical address of an address byte, the summand of a checksum
(30_encoding.md R101, 40_checksum.md R142). -/
def low7 (b : Byte) : BitVec 7 := b.extractLsb' 0 7

/-- The address byte `1aaaaaaa` of a logical address, `0x80 OR A` (30_encoding.md R100, R101). -/
def wireAddr (a : BitVec 7) : Byte := 0x80#8 ||| a.setWidth 8

/-- The byte `0sssssss` of a 7-bit value, its zero extension: a checksum byte or a payload byte
(30_encoding.md R100, 40_checksum.md R141). -/
def wireLow (x : BitVec 7) : Byte := x.setWidth 8

/-- A field placed in a read result from bit `lo` up, zeros elsewhere (30_encoding.md R108). -/
def place (lo : Nat) {w : Nat} (f : BitVec w) : BitVec 32 := f.setWidth 32 <<< lo

/-- A one-bit field. -/
def bit (b : Bool) : BitVec 1 := BitVec.ofBool b

/-- A one-byte field holding a count or an index. -/
def count8 (n : Nat) : BitVec 8 := BitVec.ofNat 8 n

end Sys2Proof.Machine
end

