-- ==== Sys2Proof/Config.lean ====
section
/-! DEFINITION. What an implementation fixes (00_scope.md R7): the two capacities, at the values the spec gives
them, and STATUS_MAP, which the spec leaves OPEN and the model leaves free. TICK_PERIOD appears in no rule of
behaviour and in no definition here. -/

namespace Sys2Proof

/-- TXCAP, the capacity of the request payload buffer (00_scope.md R7, 92_eei_decisions.md D5).
DESIGN CHOICE: the spec's default value, where a build may take less. Log 8, unsafe. -/
def Config.txCap : Nat := 252

/-- RXCAP, the capacity of the receive buffer (00_scope.md R7, 92_eei_decisions.md D5).
DESIGN CHOICE: the spec's default value, where a build may take less. Log 8, unsafe. -/
def Config.rxCap : Nat := 255

/-- STATUS_MAP, from a raw status byte to a status identifier, 0 for an unrecognized byte (00_scope.md R7,
10_state.md R24). OPEN in the spec: no body, so nothing can be proved of any value of it. Log 7, safe. -/
opaque Config.statusMap : Byte → Byte

/-- The fourteen status names of the source, in the order of 10_state.md R24. -/
inductive StatusName
  | processingStarted | moveAborted | commandFinished | checksumError | addressError | invalidCommand
  | invalidParameter | noCommandPending | noMovePending | moveAlreadyPending | busy | present
  | portUnavailable | moveStopped
  deriving DecidableEq, Repr

/-- The names with their status identifiers SID 1 to 14 (10_state.md R24; 15..255 are left to the parameter). -/
def Config.statusNames : List (Byte × StatusName) :=
  [(1, .processingStarted), (2, .moveAborted), (3, .commandFinished), (4, .checksumError), (5, .addressError),
   (6, .invalidCommand), (7, .invalidParameter), (8, .noCommandPending), (9, .noMovePending),
   (10, .moveAlreadyPending), (11, .busy), (12, .present), (13, .portUnavailable), (14, .moveStopped)]

/-- The name of a status identifier; none for 0 and for the parameter-defined 15..255 (10_state.md R24). -/
def Config.nameOfSid (sid : Byte) : Option StatusName := Config.statusNames.lookup sid

end Sys2Proof
end

