-- ==== Sys2Proof/Machine/Port.lean ====
section
/-! DEFINITION. What the agents present to the block: raw operations before decoding (00_scope.md R9, 20_memory.md
R81), the hardware reset input (70_reset_and_hazards.md R321), and the operations of one clock cycle in the order
of 20_memory.md R85. -/

namespace Sys2Proof.Machine

/-- Where in a frame a wire byte stands: the three classes of 30_encoding.md R100. -/
inductive WireClass
  | address | trailer | payload
  deriving DecidableEq, Repr

/-- A raw operation of one agent (00_scope.md R9, 20_memory.md R81, 30_encoding.md R109). `wire` is a byte delivered
by RXSRC and shown together with its place in a frame. Log 3. -/
inductive RawOp
  | hostWrite (off : Offset) (v : Word)
  | hostRead (off : Offset)
  | rxByte (b : Byte)
  | tick
  | txPop
  | wire (c : WireClass) (b : Byte)
  deriving DecidableEq, Repr

/-- An input of the block: a raw operation, or an edge of the hardware reset line (70_reset_and_hazards.md R321). -/
inductive Input
  | op (o : RawOp)
  | reset (asserted : Bool)
  deriving DecidableEq, Repr

/-- A host access presented in a clock cycle (20_memory.md R73). -/
inductive HostAccess
  | write (off : Offset) (v : Word)
  | read (off : Offset)
  deriving DecidableEq, Repr

/-- What the four agents present in one clock cycle, at most one operation each (20_memory.md R85). -/
structure Cycle where
  pop  : Bool := false
  rx   : Option Byte := none
  tick : Bool := false
  host : Option HostAccess := none
  deriving DecidableEq, Repr

/-- A host access as a raw operation. -/
def HostAccess.raw : HostAccess → RawOp
  | .write off v => .hostWrite off v
  | .read off => .hostRead off

/-- The operations of one cycle in the order they take effect: TX_POP, RX_BYTE, TICK, host access
(20_memory.md R85). -/
def Cycle.ops (c : Cycle) : List RawOp :=
  (if c.pop then [.txPop] else []) ++ (c.rx.map .rxByte).toList ++ (if c.tick then [.tick] else [])
    ++ (c.host.map HostAccess.raw).toList

end Sys2Proof.Machine
end

