-- ==== Sys2Proof/Machine/State.lean ====
section
/-! DEFINITION. The state of the block (10_state.md R20), the streams of 20_memory.md R70, the model's own fields, and
the state after reset (10_state.md R51). -/

namespace Sys2Proof.Machine

/-- FR_STATE; the value 3 never occurs (10_state.md R39, 93_implementation_defined.md I29). -/
inductive FrState
  | idle | accum | done
  deriving DecidableEq, Repr

/-- `DEC.verdict`; the values 5 to 7 never occur (10_state.md R40). -/
inductive Verdict
  | okEcho | okEchoData | errMalformed | errStatus | errCsum
  deriving DecidableEq, Repr

/-- `DEC.reason`, `none` being 0; the values 5 to 7 never occur (10_state.md R40). -/
inductive Reason
  | none | echoShort | dataHdrShort | noTerminator | noTrailer
  deriving DecidableEq, Repr

/-- The record DEC (10_state.md R40). Its default is `ZERO`, every field 0 (42_deserializer.md R195).
`sect` is the field `section`: false for the echo section, true for the data section. -/
structure Dec where
  verdict  : Verdict := .okEcho
  reason   : Reason := .none
  sect     : Bool := false
  echoOk   : Bool := false
  dataOk   : Bool := false
  trailing : Bool := false
  consumed : BitVec 8 := 0
  eAddr    : Byte := 0
  eCmd     : Byte := 0
  eStatus  : Byte := 0
  eRsvd    : Byte := 0
  eComp    : BitVec 7 := 0
  eRcvd    : Byte := 0
  sid      : Byte := 0
  dAddr    : Byte := 0
  dCmd     : Byte := 0
  dPlen    : BitVec 8 := 0
  dTerm    : BitVec 8 := 0
  dComp    : BitVec 7 := 0
  dRcvd    : Byte := 0
  deriving DecidableEq, Repr

/-- `ZERO`, the record with every field 0 (42_deserializer.md R195). -/
def Dec.zero : Dec := {}

/-- The record of the empty buffer: ERR_MALFORMED, ECHO_SHORT, every other field 0 (10_state.md R51). -/
def Dec.ofEmpty : Dec := { Dec.zero with verdict := .errMalformed, reason := .echoShort }

/-- Everything the spec gives the block (10_state.md R20), the two streams of 20_memory.md R70, and three fields of
the model's own. TXP_LEN and RX_LEN are the lengths of `txp` and `rxbuf` (log 10). -/
structure State where
  /-- HERR, the sticky host-error flags (10_state.md R28). -/
  herr       : BitVec 5
  /-- CS_ACC, the running checksum (10_state.md R29). -/
  csAcc      : BitVec 7
  /-- CS_RCVD, the trailer to verify against (10_state.md R31). -/
  csRcvd     : Byte
  /-- TX_ADDR, the logical address of the request (10_state.md R32). -/
  txAddr     : BitVec 7
  /-- The valid bytes of `txp`, the request payload; TXP_LEN of them (10_state.md R33). -/
  txp        : List Byte
  /-- TX_NONASCII (10_state.md R35). -/
  txNonascii : Bool
  /-- TX_OVF (10_state.md R35). -/
  txOvf      : Bool
  /-- The transmit output queue, head first (10_state.md R34). -/
  txq        : List Byte
  /-- The valid bytes of `rxbuf`; RX_LEN of them (10_state.md R36). -/
  rxbuf      : List Byte
  /-- EXPECT_DATA (10_state.md R37). -/
  expectData : Bool
  /-- FR_TIMEOUT, the budget of the next attempt in ticks (10_state.md R38). -/
  frTimeout  : BitVec 32
  /-- FR_REMAIN, the ticks left (10_state.md R39). -/
  frRemain   : BitVec 32
  /-- FR_STATE (10_state.md R39). -/
  frState    : FrState
  /-- FR_COMPLETE (10_state.md R39). -/
  frComplete : Bool
  /-- FR_TIMEDOUT (10_state.md R39). -/
  frTimedout : Bool
  /-- FR_OVF (10_state.md R39). -/
  frOvf      : Bool
  /-- FR_STRAY (10_state.md R39). -/
  frStray    : Bool
  /-- DEC, the latched result of the last decode (10_state.md R40). -/
  dec        : Dec
  /-- The transmit stream: every byte emitted since hardware reset (20_memory.md R70, 41_serializer.md R171). Log 6. -/
  txStream   : List Byte
  /-- The receive stream: every byte delivered by RX_BYTE since hardware reset (20_memory.md R70). Log 6. -/
  rxStream   : List Byte
  /-- The model's own: the word the last host read returned. Log 5. -/
  readData   : Option Word
  /-- The model's own: the inputs presented and not yet performed, oldest first (20_memory.md R84). Log 1. -/
  pending    : List Input
  /-- The model's own: hardware reset is asserted (70_reset_and_hazards.md R321). Log 9. -/
  resetLine  : Bool
  deriving DecidableEq, Repr

/-- The faults of the machine: none. "No operation faults, traps, hangs or leaves state undefined" (00_scope.md R10). -/
inductive Fault
  deriving DecidableEq, Repr

/-- The refusals of the model. A refusal in the spec's sense (00_scope.md R10) is a next state with a flag set, not one
of these. -/
inductive Refusal
  /-- Raised by an arm of exec that has no meaning yet; safe, the model stops. No arm raises it. -/
  | notModelled (mnemonic : String)
  deriving DecidableEq, Repr

/-- What an instruction or a step answers. -/
abbrev Result := Host.Outcome State Fault Refusal

/-- The state right after hardware reset (10_state.md R51, 70_reset_and_hazards.md R320), reset deasserted and
nothing presented. -/
def State.reset : State where
  herr := 0
  csAcc := 0
  csRcvd := 0
  txAddr := 0
  txp := []
  txNonascii := false
  txOvf := false
  txq := []
  rxbuf := []
  expectData := false
  frTimeout := 0
  frRemain := 0
  frState := .idle
  frComplete := false
  frTimedout := false
  frOvf := false
  frStray := false
  dec := Dec.ofEmpty
  txStream := []
  rxStream := []
  readData := none
  pending := []
  resetLine := false

end Sys2Proof.Machine
end

