-- ==== Sys2Proof/Machine/Flags.lean ====
section
/-! DEFINITION. The flags: the host-error bits (10_state.md R28), the numeric codes of the enumerated fields
(10_state.md R39, R40), the live comparison MATCH (R31), the refusal conditions of TX_ENCODE (41_serializer.md R166),
the completion predicate (43_framer.md R232) and the gating table (43_framer.md R245). -/

namespace Sys2Proof.Machine

/-- The five sticky host-error flags of HERR (10_state.md R28). -/
inductive HostErr
  | badcmd | badacc | badstate | txbusy | txbad
  deriving DecidableEq, Repr

/-- The bit of HERR that holds a flag (10_state.md R28). -/
def herrMask : HostErr → BitVec 5
  | .badcmd => 0b00001
  | .badacc => 0b00010
  | .badstate => 0b00100
  | .txbusy => 0b01000
  | .txbad => 0b10000

/-- The code of FR_STATE (10_state.md R39). -/
def frStateCode : FrState → BitVec 2
  | .idle => 0
  | .accum => 1
  | .done => 2

/-- The code of a verdict (10_state.md R40). -/
def verdictCode : Verdict → BitVec 3
  | .okEcho => 0
  | .okEchoData => 1
  | .errMalformed => 2
  | .errStatus => 3
  | .errCsum => 4

/-- The code of a reason (10_state.md R40). -/
def reasonCode : Reason → BitVec 3
  | .none => 0
  | .echoShort => 1
  | .dataHdrShort => 2
  | .noTerminator => 3
  | .noTrailer => 4

/-- A received trailer equals a computed checksum on all eight bits (40_checksum.md R146, 42_deserializer.md R201). -/
def trailerMatches (comp : BitVec 7) (rcvd : Byte) : Bool := rcvd == wireLow comp

/-- CS_CHECK.MATCH, live (10_state.md R31, 40_checksum.md R146). -/
def csMatch (s : State) : Bool := trailerMatches s.csAcc s.csRcvd

/-- TX_ENCODE's condition `bad` (41_serializer.md R166). -/
def txBad (s : State) : Bool := s.txNonascii || s.txOvf

/-- TX_ENCODE's condition `busy` (41_serializer.md R166). -/
def txBusy (s : State) : Bool := !s.txq.isEmpty

/-- The completion predicate `complete(r, EXPECT_DATA)` (43_framer.md R232). -/
def complete (r : Dec) (expectData : Bool) : Bool :=
  r.verdict == .okEchoData || (r.verdict == .okEcho && !expectData)

/-- The write operations that FR_STATE gates (43_framer.md R245). -/
inductive Gated
  | rxPush | rxClr | rxDecode | frStart | frSetctrl | frSettmo
  deriving DecidableEq, Repr

/-- The gating table (43_framer.md R245). -/
def admitted : Gated → FrState → Bool
  | .rxPush, .idle => true
  | .rxPush, .accum => false
  | .rxPush, .done => false
  | .rxClr, f => f != .accum
  | .rxDecode, f => f != .accum
  | .frStart, f => f != .accum
  | .frSetctrl, f => f != .accum
  | .frSettmo, f => f != .accum

end Sys2Proof.Machine
end

