-- ==== Sys2Proof/Machine/Ops.lean ====
section
/-! DEFINITION. The shared operations: recording a refusal and clearing it (00_scope.md R12, 60_exceptions.md R292,
R293), the byte buffers (20_memory.md R82), the checksum function (40_checksum.md R140), the functions `Encode`
(41_serializer.md R160) and `Decode` (42_deserializer.md R196), and the operations of the framer. -/

namespace Sys2Proof.Machine

/-! ### Refusing and clearing -/

/-- `raise Refuse(HERR.flag)`: the sticky flag is set and no other state changes (00_scope.md R10, R12;
60_exceptions.md R292). This is the block's counterpart of taking an exception. -/
def State.refuse (s : State) (e : HostErr) : State := { s with herr := s.herr ||| herrMask e }

/-- `HERR <- HERR AND NOT m` (44_system.md R266): the block's counterpart of returning from an exception
(60_exceptions.md R293). -/
def State.clearHerr (s : State) (m : BitVec 5) : State := { s with herr := s.herr &&& ~~~m }

/-- A flag is set where a condition holds (41_serializer.md R166). -/
def State.refuseIf (s : State) (c : Bool) (e : HostErr) : State := if c then s.refuse e else s

/-- A host read returns a word and changes nothing of the block (20_memory.md R79). -/
def State.reply (s : State) (w : Word) : State := { s with readData := some w }

/-- A gated write: performed in the states of the table, else refused with BADSTATE (43_framer.md R245). -/
def State.gated (s : State) (g : Gated) (f : State → State) : State :=
  if admitted g s.frState then f s else s.refuse .badstate

/-! ### The byte buffers -/

/-- `MemRead(space, k, 1)`: byte `k` of a buffer below its valid length; at or beyond it the windows read 0
(20_memory.md R82, 10_state.md R47, R48). -/
def Memory.read (buf : List Byte) (k : Nat) : Byte := buf.getD k 0

/-- `MemWrite(space, len, 1, b)` and the valid length plus one: the only write to a buffer (20_memory.md R82). -/
def Memory.append (buf : List Byte) (b : Byte) : List Byte := buf ++ [b]

/-- The bytes `s[a..b)` (00_scope.md R11). -/
def Memory.slice (buf : List Byte) (a b : Nat) : List Byte := (buf.take b).drop a

/-- The form of the two buffers: neither holds more bytes than its capacity (10_state.md R33, R36). -/
def Memory.wf (s : State) : Bool := s.txp.length ≤ Config.txCap && s.rxbuf.length ≤ Config.rxCap

/-! ### The checksum and the request encoder -/

/-- `csum(s)`: the sum of the byte values without intermediate reduction, then its low 7 bits (40_checksum.md R140). -/
def csum (s : List Byte) : BitVec 7 := BitVec.ofNat 7 (s.map BitVec.toNat).sum

/-- The protected region of a request: address byte, payload, address byte (41_serializer.md R160 steps 1 to 3). -/
def requestRegion (a : BitVec 7) (p : List Byte) : List Byte := [wireAddr a] ++ p ++ [wireAddr a]

/-- `Encode(A, p)` (41_serializer.md R160, 30_encoding.md R102). -/
def encodeFrame (a : BitVec 7) (p : List Byte) : List Byte :=
  requestRegion a p ++ [wireLow (csum (requestRegion a p))]

/-! ### The response decoder -/

/-- The echo fields, filled on every path with at least 5 bytes (42_deserializer.md R196 step 1). -/
def echoFields (map : Byte → Byte) (s : List Byte) : Dec :=
  { Dec.zero with
    eAddr := Memory.read s 0
    eCmd := Memory.read s 1
    eStatus := Memory.read s 2
    eRsvd := Memory.read s 3
    eComp := csum (Memory.slice s 0 4)
    eRcvd := Memory.read s 4
    sid := map (Memory.read s 2) }

/-- The terminator: the least index from 7 on whose byte equals byte 5 on all eight bits (42_deserializer.md R203,
30_encoding.md R107). -/
def terminator (s : List Byte) : Option Nat :=
  ((s.drop 7).findIdx? (· == Memory.read s 5)).map (· + 7)

/-- The data section's checksum and end, once the terminator `i` and a byte after it are there
(42_deserializer.md R196 step 2, R205, R206). -/
def decodeTrailer (s : List Byte) (i : Nat) (r : Dec) : Dec :=
  let r := { r with dComp := csum (Memory.slice s 5 (i + 1)), dRcvd := Memory.read s (i + 1) }
  if trailerMatches r.dComp r.dRcvd = false then { r with verdict := .errCsum, sect := true }
  else
    { r with
      dataOk := true
      verdict := .okEchoData
      consumed := count8 (i + 2)
      trailing := decide (s.length > i + 2) }

/-- The data section, after a valid echo section (42_deserializer.md R196 step 2, R204). -/
def decodeData (s : List Byte) (r : Dec) : Dec :=
  if s.length = 5 then { r with verdict := .okEcho, consumed := 5 }
  else if s.length = 6 then { r with verdict := .errMalformed, reason := .dataHdrShort }
  else
    let r := { r with dAddr := Memory.read s 5, dCmd := Memory.read s 6 }
    match terminator s with
    | none => { r with verdict := .errMalformed, reason := .noTerminator }
    | some i =>
      let r := { r with dTerm := count8 i, dPlen := count8 (i - 7) }
      if i + 1 ≥ s.length then { r with verdict := .errMalformed, reason := .noTrailer }
      else decodeTrailer s i r

/-- `Decode(s, n)` for the valid bytes `s` of a buffer, `n` their number, with STATUS_MAP as an argument
(42_deserializer.md R196). -/
def decodeFrame (map : Byte → Byte) (s : List Byte) : Dec :=
  if s.length < 5 then { Dec.zero with verdict := .errMalformed, reason := .echoShort }
  else
    let r := echoFields map s
    if r.sid = 0 then { r with verdict := .errStatus }
    else if trailerMatches r.eComp r.eRcvd = false then { r with verdict := .errCsum, sect := false }
    else decodeData s { r with echoOk := true }

/-- `Decode` with the STATUS_MAP the block is built with (00_scope.md R7). -/
def decodeRx (s : List Byte) : Dec := decodeFrame Config.statusMap s

/-! ### The serializer -/

/-- `TX_PUSH`: both flags are set where both conditions hold; the byte is stored where neither does
(41_serializer.md R163). -/
def State.pushTx (s : State) (b : Byte) : State :=
  { s with
    txNonascii := s.txNonascii || marker b
    txOvf := s.txOvf || s.txp.length == Config.txCap
    txp := if marker b = false ∧ s.txp.length < Config.txCap then Memory.append s.txp b else s.txp }

/-- `TX_ENCODE`: refused with TXBAD and TXBUSY, each where its condition holds, else the whole frame enters the empty
queue (41_serializer.md R165, R166). -/
def State.encodeTx (s : State) : State :=
  if txBad s || txBusy s then (s.refuseIf (txBad s) .txbad).refuseIf (txBusy s) .txbusy
  else { s with txq := encodeFrame s.txAddr s.txp }

/-- `emit(b)`: the byte leaves the block on the transmit port (00_scope.md R12, 20_memory.md R70). -/
def State.emit (s : State) (b : Byte) : State := { s with txStream := s.txStream ++ [b] }

/-- `TX_POP`: the head of the queue is emitted; on an empty queue nothing changes (41_serializer.md R170; log 2). -/
def State.popTx (s : State) : State :=
  match s.txq with
  | [] => s
  | b :: q => { s with txq := q }.emit b

/-! ### The receive buffer and the framer -/

/-- The buffer is emptied and DEC becomes the decode of the empty buffer (42_deserializer.md R193, 43_framer.md R233). -/
def State.emptyRx (s : State) : State := { s with rxbuf := [], dec := decodeRx [] }

/-- `RX_PUSH` where admitted: the byte is stored, or dropped with FR_OVF where the buffer is full
(42_deserializer.md R192). -/
def State.pushRx (s : State) (b : Byte) : State :=
  if s.rxbuf.length < Config.rxCap then { s with rxbuf := Memory.append s.rxbuf b } else { s with frOvf := true }

/-- `RX_CLR` where admitted (42_deserializer.md R193). -/
def State.clearRx (s : State) : State :=
  { s.emptyRx with frComplete := false, frTimedout := false, frOvf := false, frStray := false, frState := .idle }

/-- `RX_DECODE` where admitted: DEC is latched (42_deserializer.md R194). -/
def State.latchDec (s : State) : State := { s with dec := decodeRx s.rxbuf }

/-- `FR_START` where admitted: a budget of 0 ends the attempt at once (43_framer.md R233). -/
def State.startAttempt (s : State) : State :=
  { s.emptyRx with
    frComplete := false
    frOvf := false
    frStray := false
    frRemain := s.frTimeout
    frState := if s.frTimeout = 0 then .done else .accum
    frTimedout := decide (s.frTimeout = 0) }

/-- The stored byte is decoded with the buffer and ends the attempt where it completes a frame (43_framer.md R236). -/
def State.storeRx (s : State) (b : Byte) : State :=
  let buf := Memory.append s.rxbuf b
  let r := decodeRx buf
  if complete r s.expectData then { s with rxbuf := buf, dec := r, frState := .done, frComplete := true }
  else { s with rxbuf := buf, dec := r }

/-- What a received byte does to the block: stored while accumulating, dropped with FR_OVF where the buffer is full,
dropped with FR_STRAY outside an attempt (43_framer.md R235 to R237, R239). -/
def State.acceptRx (s : State) (b : Byte) : State :=
  match s.frState with
  | .accum => if s.rxbuf.length < Config.rxCap then s.storeRx b else { s with frOvf := true }
  | .idle | .done => { s with frStray := true }

/-- `RX_BYTE(b)`: the receive stream delivers the byte and the block takes or drops it (43_framer.md R235,
20_memory.md R70). -/
def State.receive (s : State) (b : Byte) : State := { s.acceptRx b with rxStream := s.rxStream ++ [b] }

/-- `TICK`: in ACCUM one tick less remains, and the attempt times out where it was the last (43_framer.md R238). -/
def State.tickDown (s : State) : State :=
  match s.frState with
  | .accum =>
    if s.frRemain = 1 then { s with frRemain := s.frRemain - 1, frState := .done, frTimedout := true }
    else { s with frRemain := s.frRemain - 1 }
  | .idle | .done => s

/-! ### Reset -/

/-- `BLK_RESET`: every element of 10_state.md R20 at its reset value (44_system.md R264). The streams, the last read
word and the inputs of the model are no elements of the block and stay. Log 5, log 6. -/
def State.blockReset (s : State) : State :=
  { State.reset with
    txStream := s.txStream
    rxStream := s.rxStream
    readData := s.readData
    pending := s.pending
    resetLine := s.resetLine }

/-- Hardware reset is asserted: the reset state, with the inputs still to come (70_reset_and_hazards.md R320, R321). -/
def State.hardReset (s : State) : State := { State.reset with pending := s.pending, resetLine := true }

end Sys2Proof.Machine
end

