-- ==== Sys2Proof/Machine/Checksum.lean ====
section
/-! DEFINITION. The checksum unit (40_checksum.md). -/

namespace Sys2Proof.Machine

/-- CS_CLR (40_checksum.md R143). -/
def execCsClr (s : State) : Result := .next { s with csAcc := 0, csRcvd := 0 }

/-- CS_ADD: the low seven bits are added mod 128 (40_checksum.md R144). -/
def execCsAdd (b : Byte) (s : State) : Result := .next { s with csAcc := s.csAcc + low7 b }

/-- CS_SETCHK (40_checksum.md R145). -/
def execCsSetchk (r : Byte) (s : State) : Result := .next { s with csRcvd := r }

end Sys2Proof.Machine
end

