-- ==== Sys2Proof/Machine/Deserializer.lean ====
section
/-! DEFINITION. The host operations of the frame deserializer (42_deserializer.md), gated by FR_STATE (43_framer.md R245). -/

namespace Sys2Proof.Machine

/-- RX_PUSH (42_deserializer.md R192). -/
def execRxPush (b : Byte) (s : State) : Result := .next (s.gated .rxPush (fun s => s.pushRx b))

/-- RX_CLR (42_deserializer.md R193). -/
def execRxClr (s : State) : Result := .next (s.gated .rxClr State.clearRx)

/-- RX_DECODE (42_deserializer.md R194). -/
def execRxDecode (s : State) : Result := .next (s.gated .rxDecode State.latchDec)

end Sys2Proof.Machine
end

