-- ==== Sys2Proof/Machine/Framer.lean ====
section
/-! DEFINITION. The byte-stream framer (43_framer.md). -/

namespace Sys2Proof.Machine

/-- FR_START (43_framer.md R233, R245). -/
def execFrStart (s : State) : Result := .next (s.gated .frStart State.startAttempt)

/-- FR_SETCTRL (43_framer.md R240, R245). -/
def execFrSetctrl (e : Bool) (s : State) : Result := .next (s.gated .frSetctrl (fun s => { s with expectData := e }))

/-- FR_SETTMO (43_framer.md R241, R245). -/
def execFrSettmo (t : Word) (s : State) : Result := .next (s.gated .frSettmo (fun s => { s with frTimeout := t }))

/-- RX_BYTE (43_framer.md R235 to R237, R239). -/
def execRxByte (b : Byte) (s : State) : Result := .next (s.receive b)

/-- TICK (43_framer.md R238). -/
def execTick (s : State) : Result := .next s.tickDown

end Sys2Proof.Machine
end

