-- ==== Sys2Proof/Machine/Registers.lean ====
section
/-! DEFINITION. The words the registers read as: each field at the bits its rule of 10_state.md names, zeros elsewhere
(10_state.md R25, R26 to R48; 30_encoding.md R108). -/

namespace Sys2Proof.Machine

/-- CAP: [7:0] TXCAP, [15:8] RXCAP (10_state.md R26). -/
def regCap : Word := place 0 (count8 Config.txCap) ||| place 8 (count8 Config.rxCap)

/-- A write-only location reads 0 (20_memory.md R78). -/
def regWriteOnly : Word := 0

/-- HERR: [4:0] the flags (10_state.md R28). -/
def regHerr (s : State) : Word := place 0 s.herr

/-- CS_SUM: [6:0] CS_ACC (10_state.md R30). -/
def regCsSum (s : State) : Word := place 0 s.csAcc

/-- CS_CHECK: [7:0] CS_RCVD, [8] MATCH (10_state.md R31). -/
def regCsCheck (s : State) : Word := place 0 s.csRcvd ||| place 8 (bit (csMatch s))

/-- TX_ADDR: [6:0] the logical address (10_state.md R32). -/
def regTxAddr (s : State) : Word := place 0 s.txAddr

/-- TX_STAT: [7:0] PLEN, [15:8] QLEVEL, [16] NONASCII, [17] OVF (10_state.md R35). -/
def regTxStat (s : State) : Word :=
  place 0 (count8 s.txp.length) ||| place 8 (count8 s.txq.length) ||| place 16 (bit s.txNonascii)
    ||| place 17 (bit s.txOvf)

/-- FR_CTRL: [0] EXPECT_DATA (10_state.md R37). -/
def regFrCtrl (s : State) : Word := place 0 (bit s.expectData)

/-- FR_TIMEOUT: [31:0] the budget (10_state.md R38). -/
def regFrTimeout (s : State) : Word := s.frTimeout

/-- FR_REMAIN: [31:0] the ticks left (10_state.md R39). -/
def regFrRemain (s : State) : Word := s.frRemain

/-- FR_STAT: [1:0] STATE, [2] COMPLETE, [3] TIMEDOUT, [4] OVF, [5] STRAY, [15:8] RXLEN (10_state.md R39). -/
def regFrStat (s : State) : Word :=
  place 0 (frStateCode s.frState) ||| place 2 (bit s.frComplete) ||| place 3 (bit s.frTimedout)
    ||| place 4 (bit s.frOvf) ||| place 5 (bit s.frStray) ||| place 8 (count8 s.rxbuf.length)

/-- DEC_STAT: [2:0] VERDICT, [6:4] REASON, [8] SECTION, [9] ECHO_OK, [10] DATA_OK, [11] TRAILING, [23:16] CONSUMED
(10_state.md R41). -/
def regDecStat (d : Dec) : Word :=
  place 0 (verdictCode d.verdict) ||| place 4 (reasonCode d.reason) ||| place 8 (bit d.sect)
    ||| place 9 (bit d.echoOk) ||| place 10 (bit d.dataOk) ||| place 11 (bit d.trailing) ||| place 16 d.consumed

/-- DEC_ECHO: [7:0] ADDR, [15:8] CMD, [23:16] STATUS, [31:24] RSVD (10_state.md R42). -/
def regDecEcho (d : Dec) : Word := place 0 d.eAddr ||| place 8 d.eCmd ||| place 16 d.eStatus ||| place 24 d.eRsvd

/-- DEC_ECHO2: [6:0] COMP, [15:8] RCVD, [23:16] SID (10_state.md R43). -/
def regDecEcho2 (d : Dec) : Word := place 0 d.eComp ||| place 8 d.eRcvd ||| place 16 d.sid

/-- DEC_DATA: [7:0] ADDR, [15:8] CMD, [23:16] PLEN, [31:24] TERM (10_state.md R44). -/
def regDecData (d : Dec) : Word := place 0 d.dAddr ||| place 8 d.dCmd ||| place 16 d.dPlen ||| place 24 d.dTerm

/-- DEC_DATA2: [6:0] COMP, [15:8] RCVD (10_state.md R45). -/
def regDecData2 (d : Dec) : Word := place 0 d.dComp ||| place 8 d.dRcvd

/-- A window word: byte `k` of the buffer below its valid length, else 0 (10_state.md R47, R48). -/
def regWindow (buf : List Byte) (k : Nat) : Word := place 0 (Memory.read buf k)

end Sys2Proof.Machine
end

