-- ==== Sys2Proof/Machine/Reads.lean ====
section
/-! DEFINITION. The host reads: each returns the word of its register and changes nothing else (20_memory.md R79, R81). -/

namespace Sys2Proof.Machine

/-- RD CAP (44_system.md R267, 10_state.md R26). -/
def execRdCap (s : State) : Result := .next (s.reply regCap)

/-- RD CMD (44_system.md R267, 20_memory.md R78). -/
def execRdCmd (s : State) : Result := .next (s.reply regWriteOnly)

/-- RD HERR (44_system.md R267, 10_state.md R28). -/
def execRdHerr (s : State) : Result := .next (s.reply (regHerr s))

/-- RD CS_DATA (20_memory.md R78). -/
def execRdCsData (s : State) : Result := .next (s.reply regWriteOnly)

/-- RD CS_SUM (40_checksum.md R146, 10_state.md R30). -/
def execRdCsSum (s : State) : Result := .next (s.reply (regCsSum s))

/-- RD CS_CHECK (40_checksum.md R146, 10_state.md R31). -/
def execRdCsCheck (s : State) : Result := .next (s.reply (regCsCheck s))

/-- RD TX_ADDR (41_serializer.md R172, 10_state.md R32). -/
def execRdTxAddr (s : State) : Result := .next (s.reply (regTxAddr s))

/-- RD TX_PUSH (20_memory.md R78). -/
def execRdTxPush (s : State) : Result := .next (s.reply regWriteOnly)

/-- RD TX_STAT (41_serializer.md R172, 10_state.md R35). -/
def execRdTxStat (s : State) : Result := .next (s.reply (regTxStat s))

/-- RD RX_PUSH (20_memory.md R78). -/
def execRdRxPush (s : State) : Result := .next (s.reply regWriteOnly)

/-- RD FR_CTRL (43_framer.md R247, 10_state.md R37). -/
def execRdFrCtrl (s : State) : Result := .next (s.reply (regFrCtrl s))

/-- RD FR_TIMEOUT (43_framer.md R247, 10_state.md R38). -/
def execRdFrTimeout (s : State) : Result := .next (s.reply (regFrTimeout s))

/-- RD FR_REMAIN (43_framer.md R247, 10_state.md R39). -/
def execRdFrRemain (s : State) : Result := .next (s.reply (regFrRemain s))

/-- RD FR_STAT (43_framer.md R247, 10_state.md R39). -/
def execRdFrStat (s : State) : Result := .next (s.reply (regFrStat s))

/-- RD DEC_STAT (42_deserializer.md R212, 10_state.md R41). -/
def execRdDecStat (s : State) : Result := .next (s.reply (regDecStat s.dec))

/-- RD DEC_ECHO (42_deserializer.md R212, 10_state.md R42). -/
def execRdDecEcho (s : State) : Result := .next (s.reply (regDecEcho s.dec))

/-- RD DEC_ECHO2 (42_deserializer.md R212, 10_state.md R43). -/
def execRdDecEcho2 (s : State) : Result := .next (s.reply (regDecEcho2 s.dec))

/-- RD DEC_DATA (42_deserializer.md R212, 10_state.md R44). -/
def execRdDecData (s : State) : Result := .next (s.reply (regDecData s.dec))

/-- RD DEC_DATA2 (42_deserializer.md R212, 10_state.md R45). -/
def execRdDecData2 (s : State) : Result := .next (s.reply (regDecData2 s.dec))

/-- RD RXB[k] (42_deserializer.md R212, 10_state.md R47). -/
def execRdRxb (k : Nat) (s : State) : Result := .next (s.reply (regWindow s.rxbuf k))

/-- RD TXP[k] (41_serializer.md R172, 10_state.md R48). -/
def execRdTxp (k : Nat) (s : State) : Result := .next (s.reply (regWindow s.txp k))

end Sys2Proof.Machine
end

