-- ==== Sys2Proof/Machine/Serializer.lean ====
section
/-! DEFINITION. The frame serializer (41_serializer.md). -/

namespace Sys2Proof.Machine

/-- TX_SETADDR (41_serializer.md R162). -/
def execTxSetaddr (a : BitVec 7) (s : State) : Result := .next { s with txAddr := a }

/-- TX_PUSH (41_serializer.md R163). -/
def execTxPush (b : Byte) (s : State) : Result := .next (s.pushTx b)

/-- TX_CLR: the payload and its error flags are cleared; the queue stays (41_serializer.md R164). -/
def execTxClr (s : State) : Result := .next { s with txp := [], txNonascii := false, txOvf := false }

/-- TX_ENCODE (41_serializer.md R165, R166). -/
def execTxEncode (s : State) : Result := .next s.encodeTx

/-- TX_POP (41_serializer.md R170). -/
def execTxPop (s : State) : Result := .next s.popTx

end Sys2Proof.Machine
end

