-- ==== Sys2Proof/Machine/System.lean ====
section
/-! DEFINITION. The system operations (44_system.md). -/

namespace Sys2Proof.Machine

/-- NOP: no state changes (44_system.md R261). -/
def execNop (s : State) : Result := .next s

/-- BLK_RESET: every element at its reset value, in every state (44_system.md R264). -/
def execBlkReset (s : State) : Result := .next s.blockReset

/-- HERR_W1C: the flags of the mask are cleared (44_system.md R266). -/
def execHerrW1c (m : BitVec 5) (s : State) : Result := .next (s.clearHerr m)

end Sys2Proof.Machine
end

