-- ==== Sys2Proof/Machine/Wire.lean ====
section
/-! DEFINITION. The byte classes of the wire (30_encoding.md R100). The table lists them as rows; they are encodings and no
operations of their own (00_scope.md R9), so a byte of a class has the effect of its arrival on the receive side:
RX_BYTE of the byte (43_framer.md R235). DEDUCED, log 3. -/

namespace Sys2Proof.Machine

/-- A received address byte `1aaaaaaa` (30_encoding.md R101); no received byte is rejected for its marker. -/
def execAddrByte (a : BitVec 7) (s : State) : Result := .next (s.receive (wireAddr a))

/-- A received checksum byte `0sssssss` (30_encoding.md R100, 40_checksum.md R141). -/
def execCsumByte (c : BitVec 7) (s : State) : Result := .next (s.receive (wireLow c))

/-- A received payload byte `0ppppppp` (30_encoding.md R100). -/
def execPayloadByte (p : BitVec 7) (s : State) : Result := .next (s.receive (wireLow p))

end Sys2Proof.Machine
end

