-- ==== Sys2Proof/Syntax.lean ====
section
/-! DEFINITION. The operations of the block, one constructor per row of spec/opcode_table.json, with their
operands as 30_encoding.md R108 and R109 assemble them. -/

namespace Sys2Proof

/-- One constructor per row of the operation table, in its order (30_encoding.md R110, R100). -/
inductive Instr
  -- format CMD (30_encoding.md R120)
  | nop | csClr | txClr | txEncode | rxClr | rxDecode | frStart | blkReset
  -- format REGW (30_encoding.md R108, R110)
  | herrW1c (m : BitVec 5)
  | csAdd (b : Byte)
  | csSetchk (r : Byte)
  | txSetaddr (a : BitVec 7)
  | txPush (b : Byte)
  | rxPush (b : Byte)
  | frSetctrl (e : Bool)
  | frSettmo (t : Word)
  -- format REGR (30_encoding.md R110, 20_memory.md R80)
  | rdCap | rdCmd | rdHerr | rdCsData | rdCsSum | rdCsCheck | rdTxAddr | rdTxPush | rdTxStat | rdRxPush
  | rdFrCtrl | rdFrTimeout | rdFrRemain | rdFrStat | rdDecStat | rdDecEcho | rdDecEcho2 | rdDecData | rdDecData2
  | rdRxb (k : Nat)
  | rdTxp (k : Nat)
  -- format PORT (30_encoding.md R109, R110)
  | rxByte (b : Byte)
  | tick
  | txPop
  -- format WIRE, the byte classes (30_encoding.md R100)
  | addrByte (a : BitVec 7)
  | csumByte (c : BitVec 7)
  | payloadByte (p : BitVec 7)
  deriving DecidableEq, Repr

end Sys2Proof
end

