-- ==== Sys2Proof/Machine/Dispatch.lean ====
section
/-! DEFINITION. The meaning of every instruction, one arm each. -/

namespace Sys2Proof.Machine

-- One operation performed on a state (00_scope.md R10, 20_memory.md R83).
def exec (i : Instr) (s : State) : Host.Outcome State Fault Refusal :=
  match i with
  | .nop => Sys2Proof.Machine.execNop s
  | .csClr => Sys2Proof.Machine.execCsClr s
  | .txClr => Sys2Proof.Machine.execTxClr s
  | .txEncode => Sys2Proof.Machine.execTxEncode s
  | .rxClr => Sys2Proof.Machine.execRxClr s
  | .rxDecode => Sys2Proof.Machine.execRxDecode s
  | .frStart => Sys2Proof.Machine.execFrStart s
  | .blkReset => Sys2Proof.Machine.execBlkReset s
  | .herrW1c m => Sys2Proof.Machine.execHerrW1c m s
  | .csAdd b => Sys2Proof.Machine.execCsAdd b s
  | .csSetchk r => Sys2Proof.Machine.execCsSetchk r s
  | .txSetaddr a => Sys2Proof.Machine.execTxSetaddr a s
  | .txPush b => Sys2Proof.Machine.execTxPush b s
  | .rxPush b => Sys2Proof.Machine.execRxPush b s
  | .frSetctrl e => Sys2Proof.Machine.execFrSetctrl e s
  | .frSettmo t => Sys2Proof.Machine.execFrSettmo t s
  | .rdCap => Sys2Proof.Machine.execRdCap s
  | .rdCmd => Sys2Proof.Machine.execRdCmd s
  | .rdHerr => Sys2Proof.Machine.execRdHerr s
  | .rdCsData => Sys2Proof.Machine.execRdCsData s
  | .rdCsSum => Sys2Proof.Machine.execRdCsSum s
  | .rdCsCheck => Sys2Proof.Machine.execRdCsCheck s
  | .rdTxAddr => Sys2Proof.Machine.execRdTxAddr s
  | .rdTxPush => Sys2Proof.Machine.execRdTxPush s
  | .rdTxStat => Sys2Proof.Machine.execRdTxStat s
  | .rdRxPush => Sys2Proof.Machine.execRdRxPush s
  | .rdFrCtrl => Sys2Proof.Machine.execRdFrCtrl s
  | .rdFrTimeout => Sys2Proof.Machine.execRdFrTimeout s
  | .rdFrRemain => Sys2Proof.Machine.execRdFrRemain s
  | .rdFrStat => Sys2Proof.Machine.execRdFrStat s
  | .rdDecStat => Sys2Proof.Machine.execRdDecStat s
  | .rdDecEcho => Sys2Proof.Machine.execRdDecEcho s
  | .rdDecEcho2 => Sys2Proof.Machine.execRdDecEcho2 s
  | .rdDecData => Sys2Proof.Machine.execRdDecData s
  | .rdDecData2 => Sys2Proof.Machine.execRdDecData2 s
  | .rdRxb k => Sys2Proof.Machine.execRdRxb k s
  | .rdTxp k => Sys2Proof.Machine.execRdTxp k s
  | .rxByte b => Sys2Proof.Machine.execRxByte b s
  | .tick => Sys2Proof.Machine.execTick s
  | .txPop => Sys2Proof.Machine.execTxPop s
  | .addrByte a => Sys2Proof.Machine.execAddrByte a s
  | .csumByte c => Sys2Proof.Machine.execCsumByte c s
  | .payloadByte p => Sys2Proof.Machine.execPayloadByte p s

end Sys2Proof.Machine
end

