-- ==== Sys2Proof/WellFormed.lean ====
section
/-! DEFINITION. Which instruction terms the encodings admit. Every operand but a window index has its field's width
as its type; a window index is checked here (10_state.md R47, R48: k = 0..255). -/

namespace Sys2Proof

/-- A window index is one of 0..255 (10_state.md R47, R48). -/
def windowIndexOk (k : Nat) : Bool := decide (k < 256)

/-- The instruction has an encoding: its window index, where it has one, is in range. -/
def Instr.wellFormed : Instr → Bool
  | .rdRxb k => windowIndexOk k
  | .rdTxp k => windowIndexOk k
  | .nop | .csClr | .txClr | .txEncode | .rxClr | .rxDecode | .frStart | .blkReset => true
  | .herrW1c _ | .csAdd _ | .csSetchk _ | .txSetaddr _ | .txPush _ | .rxPush _ | .frSetctrl _ | .frSettmo _ => true
  | .rdCap | .rdCmd | .rdHerr | .rdCsData | .rdCsSum | .rdCsCheck | .rdTxAddr | .rdTxPush | .rdTxStat
  | .rdRxPush | .rdFrCtrl | .rdFrTimeout | .rdFrRemain | .rdFrStat | .rdDecStat | .rdDecEcho | .rdDecEcho2
  | .rdDecData | .rdDecData2 => true
  | .rxByte _ | .tick | .txPop | .addrByte _ | .csumByte _ | .payloadByte _ => true

end Sys2Proof
end

