-- ==== Sys2Proof/Decode.lean ====
section
/-! DEFINITION. From a raw operation to an instruction, or a rejection by name (20_memory.md R80, R81; 30_encoding.md
R120, R121), and back: the encoder, and the rows of spec/opcode_table.json as data. -/

namespace Sys2Proof

open Sys2Proof.Machine

/-- Why a raw operation is no instruction of the table. -/
inductive Reject
  /-- `off[1:0]` is not 0 (20_memory.md R76). -/
  | misaligned
  /-- The offset is not in the table of 20_memory.md R80 (R75). -/
  | unmapped
  /-- A write to a read-only location (20_memory.md R77). -/
  | readOnly
  /-- A command code outside 30_encoding.md R120 (R121). -/
  | reservedCommand
  deriving DecidableEq, Repr

/-- The mapped locations of the host register space (20_memory.md R80). -/
inductive Loc
  | cap | cmd | herr | csData | csSum | csCheck | txAddr | txPush | txStat | rxPush | frCtrl | frTimeout
  | frRemain | frStat | decStat | decEcho | decEcho2 | decData | decData2
  | rxb (k : Nat)
  | txp (k : Nat)
  deriving DecidableEq, Repr

/-- The offsets of the registers, the rows of 20_memory.md R80 but for the two windows. -/
def regMap : List (Offset × Loc) :=
  [(0x000, .cap), (0x004, .cmd), (0x008, .herr), (0x010, .csData), (0x014, .csSum), (0x018, .csCheck),
   (0x020, .txAddr), (0x024, .txPush), (0x028, .txStat), (0x030, .rxPush), (0x034, .frCtrl), (0x038, .frTimeout),
   (0x03C, .frRemain), (0x040, .frStat), (0x050, .decStat), (0x054, .decEcho), (0x058, .decEcho2),
   (0x05C, .decData), (0x060, .decData2)]

/-- The location of an aligned offset: the windows RXB[k] at 0x400 + 4k and TXP[k] at 0x800 + 4k, else the register
of that offset (20_memory.md R80). -/
def locate (off : Offset) : Option Loc :=
  if off.extractLsb' 10 2 = 1#2 then some (.rxb (off.extractLsb' 2 8).toNat)
  else if off.extractLsb' 10 2 = 2#2 then some (.txp (off.extractLsb' 2 8).toNat)
  else regMap.lookup off

/-- The command codes (30_encoding.md R120). -/
def commandCodes : List (Byte × Instr) :=
  [(0x00, .nop), (0x01, .csClr), (0x10, .txClr), (0x11, .txEncode), (0x20, .rxClr), (0x21, .rxDecode),
   (0x22, .frStart), (0xF0, .blkReset)]

/-- Command dispatch on `v[7:0]` (44_system.md R260). -/
def decodeCommand (v : Word) : Except Reject Instr :=
  match commandCodes.lookup (byteOperand v) with
  | some i => .ok i
  | none => .error .reservedCommand

/-- The write operation of a location, or its rejection where the location is read-only (20_memory.md R77, R80). -/
def writeOp (l : Loc) (v : Word) : Except Reject Instr :=
  match l with
  | .cmd => decodeCommand v
  | .herr => .ok (.herrW1c (maskOperand v))
  | .csData => .ok (.csAdd (byteOperand v))
  | .csCheck => .ok (.csSetchk (byteOperand v))
  | .txAddr => .ok (.txSetaddr (addrOperand v))
  | .txPush => .ok (.txPush (byteOperand v))
  | .rxPush => .ok (.rxPush (byteOperand v))
  | .frCtrl => .ok (.frSetctrl (flagOperand v))
  | .frTimeout => .ok (.frSettmo (budgetOperand v))
  | .cap | .csSum | .txStat | .frRemain | .frStat | .decStat | .decEcho | .decEcho2 | .decData | .decData2
  | .rxb _ | .txp _ => .error .readOnly

/-- The read operation of a location (20_memory.md R80). -/
def readOp : Loc → Instr
  | .cap => .rdCap | .cmd => .rdCmd | .herr => .rdHerr | .csData => .rdCsData | .csSum => .rdCsSum
  | .csCheck => .rdCsCheck | .txAddr => .rdTxAddr | .txPush => .rdTxPush | .txStat => .rdTxStat
  | .rxPush => .rdRxPush | .frCtrl => .rdFrCtrl | .frTimeout => .rdFrTimeout | .frRemain => .rdFrRemain
  | .frStat => .rdFrStat | .decStat => .rdDecStat | .decEcho => .rdDecEcho | .decEcho2 => .rdDecEcho2
  | .decData => .rdDecData | .decData2 => .rdDecData2 | .rxb k => .rdRxb k | .txp k => .rdTxp k

/-- `HostWrite(off, v)`: misaligned before unmapped before read-only (20_memory.md R81). -/
def decodeWrite (off : Offset) (v : Word) : Except Reject Instr :=
  if aligned off = false then .error .misaligned
  else match locate off with
    | none => .error .unmapped
    | some l => writeOp l v

/-- `HostRead(off)`: misaligned before unmapped (20_memory.md R81). -/
def decodeRead (off : Offset) : Except Reject Instr :=
  if aligned off = false then .error .misaligned
  else match locate off with
    | none => .error .unmapped
    | some l => .ok (readOp l)

/-- A wire byte of a class reads as that class where its bit 7 is the class's, and is a byte like any other where it
is not: the block rejects no received byte for its marker (30_encoding.md R100, R101). DESIGN CHOICE, log 3. -/
def decodeWire (c : WireClass) (b : Byte) : Instr :=
  match c, marker b with
  | .address, true => .addrByte (low7 b)
  | .trailer, false => .csumByte (low7 b)
  | .payload, false => .payloadByte (low7 b)
  | _, _ => .rxByte b

/-- The instruction a raw operation stands for, or why it is none. Total on every raw operation. -/
def decode : RawOp → Except Reject Instr
  | .hostWrite off v => decodeWrite off v
  | .hostRead off => decodeRead off
  | .rxByte b => .ok (.rxByte b)
  | .tick => .ok .tick
  | .txPop => .ok .txPop
  | .wire c b => .ok (decodeWire c b)

/-- A command as a raw operation: its code written to CMD, offset 0x004 (30_encoding.md R110, R120). -/
def encodeCommand (code : Byte) : RawOp := .hostWrite 0x004 (code.setWidth 32)

/-- The offset of entry `k` of a buffer window (10_state.md R47, R48). -/
def windowOffset (base k : Nat) : Offset := BitVec.ofNat 12 (base + 4 * k)

/-- The raw operation that presents an instruction, ignored bits 0 (30_encoding.md R108, R110, R120; R100 for the byte
classes). -/
def encode : Instr → RawOp
  | .nop => encodeCommand 0x00
  | .csClr => encodeCommand 0x01
  | .txClr => encodeCommand 0x10
  | .txEncode => encodeCommand 0x11
  | .rxClr => encodeCommand 0x20
  | .rxDecode => encodeCommand 0x21
  | .frStart => encodeCommand 0x22
  | .blkReset => encodeCommand 0xF0
  | .herrW1c m => .hostWrite 0x008 (m.setWidth 32)
  | .csAdd b => .hostWrite 0x010 (b.setWidth 32)
  | .csSetchk r => .hostWrite 0x018 (r.setWidth 32)
  | .txSetaddr a => .hostWrite 0x020 (a.setWidth 32)
  | .txPush b => .hostWrite 0x024 (b.setWidth 32)
  | .rxPush b => .hostWrite 0x030 (b.setWidth 32)
  | .frSetctrl e => .hostWrite 0x034 ((bit e).setWidth 32)
  | .frSettmo t => .hostWrite 0x038 t
  | .rdCap => .hostRead 0x000
  | .rdCmd => .hostRead 0x004
  | .rdHerr => .hostRead 0x008
  | .rdCsData => .hostRead 0x010
  | .rdCsSum => .hostRead 0x014
  | .rdCsCheck => .hostRead 0x018
  | .rdTxAddr => .hostRead 0x020
  | .rdTxPush => .hostRead 0x024
  | .rdTxStat => .hostRead 0x028
  | .rdRxPush => .hostRead 0x030
  | .rdFrCtrl => .hostRead 0x034
  | .rdFrTimeout => .hostRead 0x038
  | .rdFrRemain => .hostRead 0x03C
  | .rdFrStat => .hostRead 0x040
  | .rdDecStat => .hostRead 0x050
  | .rdDecEcho => .hostRead 0x054
  | .rdDecEcho2 => .hostRead 0x058
  | .rdDecData => .hostRead 0x05C
  | .rdDecData2 => .hostRead 0x060
  | .rdRxb k => .hostRead (windowOffset 0x400 k)
  | .rdTxp k => .hostRead (windowOffset 0x800 k)
  | .rxByte b => .rxByte b
  | .tick => .tick
  | .txPop => .txPop
  | .addrByte a => .wire .address (wireAddr a)
  | .csumByte c => .wire .trailer (wireLow c)
  | .payloadByte p => .wire .payload (wireLow p)

/-- The raw operation an opcode-table word stands for. The table numbers the rows of three formats by the same bits,
so the first row in the table's order that matches is taken: with 8 bits a command code, else an address byte, else a
checksum byte; with 16 bits (an offset) the write of the offset where it is a REGW row, else the read. The write data the
table gives no bits is 0. DESIGN CHOICE, log 11. -/
def tableOp (nbits w : Nat) : Option RawOp :=
  if nbits = 8 ∧ w < 2 ^ 8 then
    let b : Byte := BitVec.ofNat 8 w
    if (commandCodes.lookup b).isSome then some (encodeCommand b)
    else if marker b then some (.wire .address b)
    else some (.wire .trailer b)
  else if nbits = 16 ∧ w < 2 ^ 12 then
    let off : Offset := BitVec.ofNat 12 w
    if off = 0x004#12 then some (.hostRead off)
    else match decodeWrite off 0 with
      | .ok _ => some (.hostWrite off 0)
      | .error _ => some (.hostRead off)
  else none

/-- The instruction the decoder reads from an opcode-table word; none where it refuses. -/
def decodeTableWord (nbits w : Nat) : Option Instr :=
  match tableOp nbits w with
  | some o => (decode o).toOption
  | none => none

/-- The formats of spec/opcode_table.json (30_encoding.md R110, and WIRE for R100). -/
inductive Format
  | cmd | regw | regr | port | wire
  deriving DecidableEq, Repr

/-- A row of spec/opcode_table.json: its mnemonic, its format and its `match` and `mask`, which apply to the command
code, the offset or the wire byte; a PORT row has neither. -/
structure Row where
  mnemonic : String
  format   : Format
  bits     : Nat := 0
  mask     : Nat := 0
  deriving DecidableEq, Repr

/-- The table's row of an instruction, transcribed from spec/opcode_table.json. -/
def Instr.row : Instr → Row
  | .nop => ⟨"NOP", .cmd, 0x00, 0xFF⟩
  | .csClr => ⟨"CS_CLR", .cmd, 0x01, 0xFF⟩
  | .txClr => ⟨"TX_CLR", .cmd, 0x10, 0xFF⟩
  | .txEncode => ⟨"TX_ENCODE", .cmd, 0x11, 0xFF⟩
  | .rxClr => ⟨"RX_CLR", .cmd, 0x20, 0xFF⟩
  | .rxDecode => ⟨"RX_DECODE", .cmd, 0x21, 0xFF⟩
  | .frStart => ⟨"FR_START", .cmd, 0x22, 0xFF⟩
  | .blkReset => ⟨"BLK_RESET", .cmd, 0xF0, 0xFF⟩
  | .herrW1c _ => ⟨"HERR_W1C", .regw, 0x008, 0xFFF⟩
  | .csAdd _ => ⟨"CS_ADD", .regw, 0x010, 0xFFF⟩
  | .csSetchk _ => ⟨"CS_SETCHK", .regw, 0x018, 0xFFF⟩
  | .txSetaddr _ => ⟨"TX_SETADDR", .regw, 0x020, 0xFFF⟩
  | .txPush _ => ⟨"TX_PUSH", .regw, 0x024, 0xFFF⟩
  | .rxPush _ => ⟨"RX_PUSH", .regw, 0x030, 0xFFF⟩
  | .frSetctrl _ => ⟨"FR_SETCTRL", .regw, 0x034, 0xFFF⟩
  | .frSettmo _ => ⟨"FR_SETTMO", .regw, 0x038, 0xFFF⟩
  | .rdCap => ⟨"RD_CAP", .regr, 0x000, 0xFFF⟩
  | .rdCmd => ⟨"RD_CMD", .regr, 0x004, 0xFFF⟩
  | .rdHerr => ⟨"RD_HERR", .regr, 0x008, 0xFFF⟩
  | .rdCsData => ⟨"RD_CS_DATA", .regr, 0x010, 0xFFF⟩
  | .rdCsSum => ⟨"RD_CS_SUM", .regr, 0x014, 0xFFF⟩
  | .rdCsCheck => ⟨"RD_CS_CHECK", .regr, 0x018, 0xFFF⟩
  | .rdTxAddr => ⟨"RD_TX_ADDR", .regr, 0x020, 0xFFF⟩
  | .rdTxPush => ⟨"RD_TX_PUSH", .regr, 0x024, 0xFFF⟩
  | .rdTxStat => ⟨"RD_TX_STAT", .regr, 0x028, 0xFFF⟩
  | .rdRxPush => ⟨"RD_RX_PUSH", .regr, 0x030, 0xFFF⟩
  | .rdFrCtrl => ⟨"RD_FR_CTRL", .regr, 0x034, 0xFFF⟩
  | .rdFrTimeout => ⟨"RD_FR_TIMEOUT", .regr, 0x038, 0xFFF⟩
  | .rdFrRemain => ⟨"RD_FR_REMAIN", .regr, 0x03C, 0xFFF⟩
  | .rdFrStat => ⟨"RD_FR_STAT", .regr, 0x040, 0xFFF⟩
  | .rdDecStat => ⟨"RD_DEC_STAT", .regr, 0x050, 0xFFF⟩
  | .rdDecEcho => ⟨"RD_DEC_ECHO", .regr, 0x054, 0xFFF⟩
  | .rdDecEcho2 => ⟨"RD_DEC_ECHO2", .regr, 0x058, 0xFFF⟩
  | .rdDecData => ⟨"RD_DEC_DATA", .regr, 0x05C, 0xFFF⟩
  | .rdDecData2 => ⟨"RD_DEC_DATA2", .regr, 0x060, 0xFFF⟩
  | .rdRxb _ => ⟨"RD_RXB_k", .regr, 0x400, 0xC03⟩
  | .rdTxp _ => ⟨"RD_TXP_k", .regr, 0x800, 0xC03⟩
  | .rxByte _ => ⟨"RX_BYTE", .port, 0, 0⟩
  | .tick => ⟨"TICK", .port, 0, 0⟩
  | .txPop => ⟨"TX_POP", .port, 0, 0⟩
  | .addrByte _ => ⟨"ADDR_BYTE", .wire, 0x80, 0x80⟩
  | .csumByte _ => ⟨"CSUM_BYTE", .wire, 0x00, 0x80⟩
  | .payloadByte _ => ⟨"PAYLOAD_BYTE", .wire, 0x00, 0x80⟩

/-- A raw operation lies in a row: it has the row's format, and the bits the row's mask selects are the row's. -/
def Row.holds (r : Row) : RawOp → Bool
  | .hostWrite off v =>
    match r.format with
    | .cmd => off == 0x004#12 && (byteOperand v).toNat &&& r.mask == r.bits
    | .regw => off.toNat &&& r.mask == r.bits
    | .regr | .port | .wire => false
  | .hostRead off => r.format == .regr && off.toNat &&& r.mask == r.bits
  | .rxByte _ | .tick | .txPop => r.format == .port
  | .wire _ b => r.format == .wire && b.toNat &&& r.mask == r.bits

end Sys2Proof
end

