-- ==== Sys2Proof/Machine/Fetch.lean ====
section
/-! DEFINITION. Where the next operation comes from: the first pending input is taken, a raw operation is decoded, a
rejected one is refused with the flag the spec names, and hardware reset is obeyed (20_memory.md R75 to R77, R81, R84;
44_system.md R262; 70_reset_and_hazards.md R320, R321). Also what the agents and the table's words put into the
pending list. -/

namespace Sys2Proof.Machine

/-- What taking the next input comes to. -/
inductive Fetched
  /-- No input is pending. -/
  | idle
  /-- The input is dealt with: a reset edge, an operation masked by reset, or a rejected operation. -/
  | handled (s : State)
  /-- An instruction is to be performed in a state that has its input consumed. -/
  | run (i : Instr) (s : State)
  deriving DecidableEq, Repr

/-- The host-error flag of a rejection (20_memory.md R75 to R77, 44_system.md R262). -/
def rejectFlag : Reject → HostErr
  | .misaligned | .unmapped | .readOnly => .badacc
  | .reservedCommand => .badcmd

/-- A rejected operation: a write changes nothing but the flag, a read also returns 0 (20_memory.md R75, R76). -/
def State.rejectOp (s : State) (o : RawOp) (r : Reject) : State :=
  match o with
  | .hostRead _ => (s.refuse (rejectFlag r)).reply 0
  | .hostWrite _ _ | .rxByte _ | .tick | .txPop | .wire _ _ => s.refuse (rejectFlag r)

/-- A raw operation presented to a block that is not in reset. -/
def State.accept (s : State) (o : RawOp) : Fetched :=
  match decode o with
  | .ok i => .run i s
  | .error r => .handled (s.rejectOp o r)

/-- Take the first pending input (20_memory.md R84). While reset is asserted an operation is consumed with no effect
(70_reset_and_hazards.md R321). -/
def fetch (s : State) : Fetched :=
  match s.pending with
  | [] => .idle
  | .reset true :: rest => .handled { s with pending := rest }.hardReset
  | .reset false :: rest => .handled { s with pending := rest, resetLine := false }
  | .op o :: rest =>
    if s.resetLine then .handled { s with pending := rest } else { s with pending := rest }.accept o

/-- An input joins the pending ones, after all before it (20_memory.md R84). -/
def State.present (s : State) (x : Input) : State := { s with pending := s.pending ++ [x] }

/-- Operations join the pending ones in their order. -/
def State.presentOps (s : State) (os : List RawOp) : State := { s with pending := s.pending ++ os.map .op }

/-- The operations of one clock cycle join the pending ones in the order of 20_memory.md R85. -/
def State.presentCycle (s : State) (c : Cycle) : State := s.presentOps c.ops

/-- The raw operation of an opcode-table word becomes the next input, and reset is not asserted: the very next step
performs it. A word no row has leaves the state as it is. Log 1, log 11. -/
def State.presentTableWord (s : State) (nbits w : Nat) : State :=
  match tableOp nbits w with
  | some o => { s with pending := .op o :: s.pending, resetLine := false }
  | none => s

end Sys2Proof.Machine
end

