-- ==== Sys2Proof/Machine/Step.lean ====
section
/-! DEFINITION. One step of the machine: the first pending input is performed (00_scope.md R9, 20_memory.md R83, R84). -/

namespace Sys2Proof.Machine

/-- One step. With no input pending nothing happens (10_state.md R21; log 2). -/
def step (s : State) : Host.Outcome State Fault Refusal :=
  match fetch s with
  | .idle => .next s
  | .handled t => .next t
  | .run i t => exec i t

/-- The state whose next step performs the instruction of an opcode-table word. Log 1, log 11. -/
def State.withFetchWord (s : State) (nbits w : Nat) : State := s.presentTableWord nbits w

end Sys2Proof.Machine
end

