-- ==== Sys2Proof/Machine/Trace.lean ====
section
/-! DEFINITION. The trace notation as raw operations: the pseudo-operations of 30_encoding.md R131 and their
expansions, built on the lines of R130, which are encodings of instructions. -/

namespace Sys2Proof.Machine

/-- `TICK n`. -/
def traceTick (n : Nat) : List RawOp := List.replicate n (encode .tick)

/-- `RXBS b0 b1 ...`. -/
def traceRxbs (bs : List Byte) : List RawOp := bs.map (fun b => encode (.rxByte b))

/-- `TXPUSHS "text"`, the text as its ASCII codes. -/
def traceTxpushs (text : List Byte) : List RawOp := text.map (fun b => encode (.txPush b))

/-- `RXPUSHS b0 b1 ...`. -/
def traceRxpushs (bs : List Byte) : List RawOp := bs.map (fun b => encode (.rxPush b))

/-- `CSADDS b0 b1 ...`. -/
def traceCsadds (bs : List Byte) : List RawOp := bs.map (fun b => encode (.csAdd b))

/-- `TXDRAIN`: TX_POP until the queue of the state is empty. -/
def traceTxdrain (s : State) : List RawOp := List.replicate s.txq.length (encode .txPop)

/-- `SEND A, "text"`. -/
def traceSend (a : BitVec 7) (text : List Byte) : List RawOp :=
  [encode .txClr, encode (.txSetaddr a)] ++ traceTxpushs text ++ [encode .txEncode]

end Sys2Proof.Machine
end

