-- ==== Sys2Proof/Safety.lean ====
section
/-! DEFINITION. The terms of claims about runs: what a request frame is, the invariants of 10_state.md R50, the state
under hardware reset, and the runs of operations. -/

namespace Sys2Proof.Machine

/-- Every byte has bit 7 clear: pure ASCII text (30_encoding.md R100, R122). -/
def AsciiBytes (p : List Byte) : Prop := ∀ b ∈ p, marker b = false

/-- A whole request frame with a payload of at most TXCAP ASCII bytes (30_encoding.md R102). -/
def RequestFrame (f : List Byte) : Prop :=
  ∃ a p, AsciiBytes p ∧ p.length ≤ Config.txCap ∧ f = encodeFrame a p

/-- The invariants of 10_state.md R50. Item 1 (CS_ACC < 128) holds by the width of the field. -/
structure Inv (s : State) : Prop where
  /-- Item 2: the payload fits. -/
  txpFits : s.txp.length ≤ Config.txCap
  /-- Item 2: the payload is ASCII. -/
  txpAscii : AsciiBytes s.txp
  /-- Item 3: the queue is empty or a suffix of a frame. -/
  txqFrame : s.txq = [] ∨ ∃ f, RequestFrame f ∧ s.txq <:+ f
  /-- Item 4: the received bytes fit. -/
  rxFits : s.rxbuf.length ≤ Config.rxCap
  /-- Item 5: in ACCUM time remains and no outcome is recorded. -/
  accumRuns : s.frState = .accum → s.frRemain ≠ 0 ∧ s.frComplete = false ∧ s.frTimedout = false
  /-- Item 6: DONE exactly when one outcome is recorded. -/
  doneOnce : s.frState = .done ↔ s.frComplete ≠ s.frTimedout
  /-- Item 6: the two outcomes exclude each other. -/
  notBoth : ¬ (s.frComplete = true ∧ s.frTimedout = true)
  /-- Item 7: during and after an attempt DEC is the decode of the buffer. -/
  decCurrent : s.frState ≠ .idle → s.dec = decodeRx s.rxbuf
  /-- Item 8: a complete attempt has a valid response. -/
  completeValid : s.frComplete = true → s.dec.verdict = .okEcho ∨ s.dec.verdict = .okEchoData

/-- While hardware reset is asserted every element is at its reset value (70_reset_and_hazards.md R320, R321). -/
def ResetHeld (s : State) : Prop :=
  s.resetLine = true → s = { State.reset with pending := s.pending, resetLine := true }

/-- The transmit stream and the queue together are whole request frames (41_serializer.md R171). -/
def WholeFrames (s : State) : Prop :=
  ∃ fs : List (List Byte), (∀ f ∈ fs, RequestFrame f) ∧ s.txStream ++ s.txq = fs.flatten

/-- The offsets 20_memory.md R80 lists as unmapped, for the avoidance of doubt, among the aligned ones. -/
def UnmappedOffset (off : Offset) : Prop :=
  off ∈ [0x00C#12, 0x01C#12, 0x02C#12] ∨ (0x044 ≤ off.toNat ∧ off.toNat ≤ 0x04C) ∨
  (0x064 ≤ off.toNat ∧ off.toNat ≤ 0x3FC) ∨ 0xC00 ≤ off.toNat

/-- The read-only locations of 20_memory.md R77, by their offsets of R80. -/
def ReadOnlyOffset (off : Offset) : Prop :=
  off ∈ [0x000#12, 0x014#12, 0x028#12, 0x03C#12, 0x040#12, 0x050#12, 0x054#12, 0x058#12, 0x05C#12, 0x060#12] ∨
  (0x400 ≤ off.toNat ∧ off.toNat ≤ 0xBFC)

/-- A valid echo section (30_encoding.md R103). -/
def EchoSection (map : Byte → Byte) (e : List Byte) : Prop :=
  ∃ a c st x, map st ≠ 0 ∧ e = [a, c, st, x] ++ [(csum [a, c, st, x]).setWidth 8]

/-- A valid data section with address byte `a`, command byte `c` and payload `p` (30_encoding.md R104). -/
def DataSection (a c : Byte) (p d : List Byte) : Prop :=
  a ∉ p ∧ d = [a, c] ++ p ++ [a] ++ [(csum ([a, c] ++ p ++ [a])).setWidth 8]

/-- The byte an instruction delivers on the receive side, where it delivers one (43_framer.md R235; log 3). -/
def delivered : Instr → Option Byte
  | .rxByte b => some b
  | .addrByte a => some (wireAddr a)
  | .csumByte c => some (wireLow c)
  | .payloadByte p => some (wireLow p)
  | _ => none

/-- A byte arrives that an attempt stores (43_framer.md R236). -/
def stores (i : Instr) (s : State) (b : Byte) : Prop :=
  delivered i = some b ∧ s.frState = .accum ∧ s.rxbuf.length < Config.rxCap

/-- Several operations one after another, from a state; a fault or a refusal ends the run. -/
def execAll : List Instr → State → Result
  | [], s => .next s
  | i :: is, s =>
    match exec i s with
    | .next t => execAll is t
    | .fault r => .fault r
    | .refused r => .refused r

/-- A number of steps one after another, from a state; a fault or a refusal ends the run. -/
def stepAll : Nat → State → Result
  | 0, s => .next s
  | n + 1, s =>
    match step s with
    | .next t => stepAll n t
    | .fault r => .fault r
    | .refused r => .refused r

/-- An instruction is a host read (format REGR). -/
def isRead (i : Instr) : Bool := i.row.format == .regr

/-- A write to CMD, offset 0x004, with this code in its low byte and anything above is this command
(30_encoding.md R108, R110). -/
def CommandCode (code : Nat) (i : Instr) : Prop :=
  ∀ v : Word, v.toNat % 256 = code → decode (.hostWrite 0x004 v) = .ok i

/-- A write to this offset is this operation, its operand taken from the written word (30_encoding.md R108, R110). -/
def RegisterWrite (off : Offset) (f : Word → Instr) : Prop := ∀ v : Word, decode (.hostWrite off v) = .ok (f v)

/-- A read of this offset is this operation (30_encoding.md R110). -/
def RegisterRead (off : Offset) (i : Instr) : Prop := decode (.hostRead off) = .ok i

/-- Every element of the block has the value of 10_state.md R51. -/
def ResetValues (s : State) : Prop :=
  s.herr = 0 ∧ s.csAcc = 0 ∧ s.csRcvd = 0 ∧ s.txAddr = 0 ∧ s.txp.length = 0 ∧ s.txNonascii = false ∧
  s.txOvf = false ∧ s.txq = [] ∧ s.rxbuf.length = 0 ∧ s.expectData = false ∧ s.frTimeout = 0 ∧ s.frRemain = 0 ∧
  s.frState = .idle ∧ s.frComplete = false ∧ s.frTimedout = false ∧ s.frOvf = false ∧ s.frStray = false ∧
  s.dec = decodeRx [] ∧ s.dec = { Dec.zero with verdict := .errMalformed, reason := .echoShort }

end Sys2Proof.Machine
end

