-- ==== Sys2Proof/Certificates/Slice0/Obligations.lean ====
section
/-! DEFINITION. The statements for the provers. Each names the rule of spec/ it formalises. -/

open Sys2Proof Sys2Proof.Machine

/-! ### Encoding and decoding -/

/-- Every well-formed instruction, with every operand, is read back from its encoding (30_encoding.md R108, R110,
R120; 20_memory.md R81; R100 for the byte classes, whose presentation is the model's choice, log 3). -/
def Obligations.DecodeOfEncodeIsTheInstruction : Prop :=
  ∀ i : Instr, i.wellFormed = true → decode (encode i) = .ok i

/-- The decoder answers only well-formed instructions, and what it answers is read back from its own encoding. -/
def Obligations.DecodedIsWellFormed : Prop :=
  ∀ (o : RawOp) (i : Instr), decode o = .ok i → i.wellFormed = true ∧ decode (encode i) = .ok i

/-- An access is rejected as misaligned exactly where `off[1:0]` is not 0, and an aligned read is rejected exactly at
the offsets R80 lists as unmapped (20_memory.md R75, R76, R80). -/
def Obligations.ReadsRejectedExactlyOffTheMap : Prop :=
  ∀ off : Offset,
    (decode (.hostRead off) = .error .misaligned ↔ off.toNat % 4 ≠ 0) ∧
    (decode (.hostRead off) = .error .unmapped ↔ off.toNat % 4 = 0 ∧ UnmappedOffset off) ∧
    (decode (.hostRead off) ≠ .error .readOnly ∧ decode (.hostRead off) ≠ .error .reservedCommand)

/-- A write is rejected for its location exactly as R75 to R77 say, misaligned before unmapped before read-only
(20_memory.md R81, 60_exceptions.md R291). -/
def Obligations.WritesRejectedExactlyWhereNotWritable : Prop :=
  ∀ (off : Offset) (v : Word),
    (decode (.hostWrite off v) = .error .misaligned ↔ off.toNat % 4 ≠ 0) ∧
    (decode (.hostWrite off v) = .error .unmapped ↔ off.toNat % 4 = 0 ∧ UnmappedOffset off) ∧
    (decode (.hostWrite off v) = .error .readOnly ↔ off.toNat % 4 = 0 ∧ ReadOnlyOffset off) ∧
    (decode (.hostWrite off v) = .error .reservedCommand ↔
      off = 0x004#12 ∧ v.toNat % 256 ∉ [0x00, 0x01, 0x10, 0x11, 0x20, 0x21, 0x22, 0xF0])

/-- Operand assembly: each command by the code in `v[7:0]`, each register write by its offset with its operand in the low
bits of `v`, everything above ignored (30_encoding.md R108, R110, R120; 44_system.md R260). -/
def Obligations.OperandsComeFromTheLowBits : Prop :=
  (CommandCode 0x00 .nop ∧ CommandCode 0x01 .csClr ∧ CommandCode 0x10 .txClr ∧ CommandCode 0x11 .txEncode ∧
    CommandCode 0x20 .rxClr ∧ CommandCode 0x21 .rxDecode ∧ CommandCode 0x22 .frStart ∧
    CommandCode 0xF0 .blkReset) ∧
  RegisterWrite 0x008 (fun v => .herrW1c (v.extractLsb' 0 5)) ∧
  RegisterWrite 0x010 (fun v => .csAdd (v.extractLsb' 0 8)) ∧
  RegisterWrite 0x018 (fun v => .csSetchk (v.extractLsb' 0 8)) ∧
  RegisterWrite 0x020 (fun v => .txSetaddr (v.extractLsb' 0 7)) ∧
  RegisterWrite 0x024 (fun v => .txPush (v.extractLsb' 0 8)) ∧
  RegisterWrite 0x030 (fun v => .rxPush (v.extractLsb' 0 8)) ∧
  RegisterWrite 0x034 (fun v => .frSetctrl (v.getLsbD 0)) ∧
  RegisterWrite 0x038 (fun v => .frSettmo v)

/-- A few words written out from the encoding tables decode to their instructions (30_encoding.md R120;
20_memory.md R80; 95_test_vectors.md H3, H4, H11). -/
def Obligations.WrittenOutWordsDecode : Prop :=
  decode (.hostWrite 0x004 0x00000011) = .ok .txEncode ∧
  decode (.hostWrite 0x004 0xFFFFFF00) = .ok .nop ∧
  decode (.hostWrite 0x004 0x000001F0) = .ok .blkReset ∧
  decode (.hostWrite 0x010 0xFFFFFF85) = .ok (.csAdd 0x85) ∧
  decode (.hostWrite 0x020 0x00000085) = .ok (.txSetaddr 5) ∧
  decode (.hostWrite 0x034 0xFFFFFFFE) = .ok (.frSetctrl false) ∧
  decode (.hostRead 0x040) = .ok .rdFrStat ∧
  decode (.hostRead 0x7FC) = .ok (.rdRxb 255) ∧
  decode (.hostRead 0x80C) = .ok (.rdTxp 3) ∧
  decode (.wire .address 0x85) = .ok (.addrByte 5)

/-! ### The step -/

/-- When the oldest pending input is an operation that decodes to an instruction and reset is not asserted, a step is
that instruction's execution with the input consumed (20_memory.md R83, R84; the pending list is the model's, log 1). -/
def Obligations.StepRunsTheDecodedInstruction : Prop :=
  ∀ (s : State) (o : RawOp) (rest : List Input) (i : Instr),
    s.pending = .op o :: rest → s.resetLine = false → decode o = .ok i →
    step s = exec i { s with pending := rest }

/-- Every step answers a next state, and it consumes exactly the oldest pending input: the operations form one total
order (20_memory.md R84, 00_scope.md R10; the pending list is the model's, log 1, and so is the step with nothing
pending, log 2). -/
def Obligations.StepConsumesTheOldestInput : Prop :=
  (∀ s : State, s.pending = [] → step s = .next s) ∧
  ∀ (s : State) (x : Input) (rest : List Input), s.pending = x :: rest →
    ∃ t, step s = .next t ∧ t.pending = rest

/-- An access to a misaligned or unmapped offset and a write to a read-only one set HERR.BADACC and change nothing else;
the refused read returns 0 (20_memory.md R75, R76, R77). -/
def Obligations.BadAccessesSetOnlyBadacc : Prop :=
  ∀ (s : State) (off : Offset) (rest : List Input), s.resetLine = false →
    (∀ v : Word, s.pending = .op (.hostWrite off v) :: rest →
      (off.toNat % 4 ≠ 0 ∨ UnmappedOffset off ∨ ReadOnlyOffset off) →
      step s = .next { s with pending := rest, herr := s.herr ||| 0b00010#5 }) ∧
    (s.pending = .op (.hostRead off) :: rest → (off.toNat % 4 ≠ 0 ∨ UnmappedOffset off) →
      step s = .next { s with pending := rest, herr := s.herr ||| 0b00010#5, readData := some 0 })

/-- A write of a reserved command code sets HERR.BADCMD and changes nothing else, in every FR_STATE
(44_system.md R262, 30_encoding.md R121). -/
def Obligations.ReservedCommandSetsOnlyBadcmd : Prop :=
  ∀ (s : State) (v : Word) (rest : List Input),
    s.pending = .op (.hostWrite 0x004 v) :: rest → s.resetLine = false →
    v.toNat % 256 ∉ [0x00, 0x01, 0x10, 0x11, 0x20, 0x21, 0x22, 0xF0] →
    step s = .next { s with pending := rest, herr := s.herr ||| 0b00001#5 }

/-- The operations one cycle presents take effect in the order TX_POP, RX_BYTE, TICK, host access; so a byte that comes
with the last tick of an attempt is decoded before the deadline is evaluated (20_memory.md R85). -/
def Obligations.CycleOrderLetsTheByteWin : Prop :=
  (∀ (s : State) (b : Byte) (a : HostAccess) (i : Instr),
    s.pending = [] → s.resetLine = false → decode a.raw = .ok i →
    stepAll 4 (s.presentCycle { pop := true, rx := some b, tick := true, host := some a })
      = execAll [.txPop, .rxByte b, .tick, i] s) ∧
  (∀ (s : State) (b : Byte), s.frState = .accum → s.frRemain = 1 → s.rxbuf.length < Config.rxCap →
    s.frComplete = false → s.frTimedout = false →
    ∃ t, execAll [.rxByte b, .tick] s = .next t ∧ t.frState = .done ∧
      t.frComplete = complete (decodeRx (s.rxbuf ++ [b])) s.expectData ∧ t.frTimedout = !t.frComplete)

/-! ### Reset -/

/-- After hardware reset and after BLK_RESET, from every state, every element has the value of R51, and CAP reads its
constant; the fields the spec does not give (logs 1, 5, 6, 9) are not part of this statement (10_state.md R51). -/
def Obligations.ResetLeavesTheStatedValues : Prop :=
  ResetValues State.reset ∧
  (∀ (s : State) (rest : List Input), s.pending = .reset true :: rest →
    ∃ t, step s = .next t ∧ ResetValues t) ∧
  (∀ s : State, ∃ t, exec .blkReset s = .next t ∧ ResetValues t ∧ exec .rdCap t = .next (t.reply regCap))

/-- Asserting hardware reset leaves the reset state, from every state; while it is asserted no operation has any effect;
releasing it changes nothing of the block (70_reset_and_hazards.md R320, R321). That reset comes as an input, that the
pending inputs stay and that the streams and the last read word are emptied is the model's choice (logs 1, 5, 6, 9). -/
def Obligations.HardwareResetAndItsMask : Prop :=
  (∀ (s : State) (rest : List Input), s.pending = .reset true :: rest →
    step s = .next { State.reset with pending := rest, resetLine := true }) ∧
  (∀ (s : State) (o : RawOp) (rest : List Input), s.pending = .op o :: rest → s.resetLine = true →
    step s = .next { s with pending := rest }) ∧
  (∀ (s : State) (rest : List Input), s.pending = .reset false :: rest →
    step s = .next { s with pending := rest, resetLine := false })

/-- While hardware reset is asserted every element stays at its reset value: an invariant of every step. -/
def Obligations.ResetStateHeldWhileAsserted : Prop :=
  ∀ s t : State, ResetHeld s → step s = .next t → ResetHeld t

/-- BLK_RESET puts every element of the block at its reset value, in every state; the streams, the last read word and
the model's inputs stay, which is the model's choice (44_system.md R264; logs 1, 5, 6). -/
def Obligations.BlkResetRestoresResetState : Prop :=
  ∀ s : State, exec .blkReset s = .next { State.reset with
    txStream := s.txStream, rxStream := s.rxStream, readData := s.readData, pending := s.pending,
    resetLine := s.resetLine }

/-! ### System -/

/-- NOP changes no state, and HERR_W1C clears exactly the flags of its mask and changes nothing else; both in every
FR_STATE, by the code and the offset the rules give (44_system.md R261, R266). -/
def Obligations.NopAndHerrW1c : Prop :=
  CommandCode 0x00 .nop ∧ RegisterWrite 0x008 (fun v => .herrW1c (v.extractLsb' 0 5)) ∧
  ∀ s : State, exec .nop s = .next s ∧
    ∀ m : BitVec 5, ∃ h : BitVec 5,
      exec (.herrW1c m) s = .next { s with herr := h } ∧
      ∀ k < 5, h.getLsbD k = (s.herr.getLsbD k && !m.getLsbD k)

/-- No read changes any state of the block: every read returns a word and leaves everything else (20_memory.md R79). -/
def Obligations.ReadsChangeNothing : Prop :=
  ∀ (i : Instr) (s : State), isRead i = true → ∃ w : Word, exec i s = .next { s with readData := some w }

/-- A read of a write-only location returns 0 and sets no flag; CAP reads the two capacities, HERR its five flags, each
with zeros above (20_memory.md R78, 44_system.md R267, 10_state.md R26). -/
def Obligations.SystemAndWriteOnlyReads : Prop :=
  ∀ s : State,
    (∀ i ∈ [Instr.rdCmd, .rdCsData, .rdTxPush, .rdRxPush], exec i s = .next { s with readData := some 0 }) ∧
    (∃ w : Word, exec .rdCap s = .next { s with readData := some w } ∧
      (w.extractLsb' 0 8).toNat = Config.txCap ∧ (w.extractLsb' 8 8).toNat = Config.rxCap ∧
      w.extractLsb' 16 16 = 0) ∧
    (∃ w : Word, exec .rdHerr s = .next { s with readData := some w } ∧ w.toNat = s.herr.toNat)

/-! ### Checksum -/

/-- The writes of the checksum unit: CS_CLR clears it, CS_ADD adds the low seven bits mod 128, CS_SETCHK stores the
trailer to verify; each changes nothing else, in every FR_STATE. After any bytes since a clear, CS_ACC is their checksum
(40_checksum.md R143, R144, R145). -/
def Obligations.ChecksumUnitWrites : Prop :=
  CommandCode 0x01 .csClr ∧ RegisterWrite 0x010 (fun v => .csAdd (v.extractLsb' 0 8)) ∧
  RegisterWrite 0x018 (fun v => .csSetchk (v.extractLsb' 0 8)) ∧
  ∀ s : State,
    exec .csClr s = .next { s with csAcc := 0, csRcvd := 0 } ∧
    (∀ b : Byte, ∃ a : BitVec 7,
      exec (.csAdd b) s = .next { s with csAcc := a } ∧ a.toNat = (s.csAcc.toNat + b.toNat % 128) % 128) ∧
    (∀ r : Byte, exec (.csSetchk r) s = .next { s with csRcvd := r }) ∧
    (∀ bs : List Byte, s.csAcc = 0 → execAll (bs.map .csAdd) s = .next { s with csAcc := csum bs })

/-- A read of CS_SUM returns the sum, a read of CS_CHECK the trailer and the live 8-bit comparison
(40_checksum.md R146). -/
def Obligations.ChecksumUnitReads : Prop :=
  RegisterRead 0x014 .rdCsSum ∧ RegisterRead 0x018 .rdCsCheck ∧
  ∀ s : State,
    (∃ w : Word, exec .rdCsSum s = .next { s with readData := some w } ∧ w.toNat = s.csAcc.toNat) ∧
    (∃ w : Word, exec .rdCsCheck s = .next { s with readData := some w } ∧
      w.extractLsb' 0 8 = s.csRcvd ∧ (w.getLsbD 8 = true ↔ s.csRcvd.toNat = s.csAcc.toNat) ∧
      w.extractLsb' 9 23 = 0)

/-- `csum` is the sum of the byte values mod 128; it accumulates byte by byte in seven bits, the bit 7 of no byte has an
influence, and an address byte contributes its logical address (40_checksum.md R140, R142). -/
def Obligations.CsumIsASevenBitAccumulator : Prop :=
  (∀ s : List Byte, (csum s).toNat = (s.map BitVec.toNat).sum % 128) ∧
  (∀ (s : List Byte) (b : Byte), (csum (s ++ [b])).toNat = ((csum s).toNat + b.toNat % 128) % 128) ∧
  (∀ s t : List Byte, s.map (fun b => b.toNat % 128) = t.map (fun b => b.toNat % 128) → csum s = csum t) ∧
  (∀ a : BitVec 7, csum [0x80#8 ||| a.setWidth 8] = a)

/-- Round trip: adding the bytes of a sequence and then writing its checksum to CS_CHECK makes MATCH read 1
(40_checksum.md R147). -/
def Obligations.ChecksumRoundTripMatches : Prop :=
  ∀ (s : State) (bs : List Byte), ∃ w : Word,
    execAll (.csClr :: bs.map .csAdd ++ [.csSetchk ((csum bs).setWidth 8), .rdCsCheck]) s
      = .next { s with csAcc := csum bs, csRcvd := (csum bs).setWidth 8, readData := some w } ∧
    w.getLsbD 8 = true

/-- A change of one byte changes the checksum exactly when its low seven bits change; changes of several bytes are
undetected exactly when the sum of the low seven bits is unchanged mod 128 (40_checksum.md R148). -/
def Obligations.SingleByteChangeDetected : Prop :=
  (∀ (p q : List Byte) (x y : Byte),
    csum (p ++ [x] ++ q) ≠ csum (p ++ [y] ++ q) ↔ x.toNat % 128 ≠ y.toNat % 128) ∧
  (∀ s t : List Byte, csum s = csum t ↔
    (s.map (fun b => b.toNat % 128)).sum % 128 = (t.map (fun b => b.toNat % 128)).sum % 128)

/-- Only CS_ADD, CS_SETCHK, CS_CLR and BLK_RESET touch the checksum unit: it shares nothing with the serializer and
the deserializer (40_checksum.md section 2, 10_state.md R29). -/
def Obligations.ChecksumUnitIsolated : Prop :=
  ∀ (i : Instr) (s t : State), exec i s = .next t → i ≠ .csClr → i ≠ .blkReset →
    ((∀ b, i ≠ .csAdd b) → t.csAcc = s.csAcc) ∧ ((∀ r, i ≠ .csSetchk r) → t.csRcvd = s.csRcvd)

/-! ### Serializer -/

/-- TX_SETADDR stores the logical address, a frame already queued staying as it is; TX_CLR empties the payload and
clears its two flags; each changes nothing else, in every FR_STATE (41_serializer.md R162, R164). -/
def Obligations.SerializerSettings : Prop :=
  RegisterWrite 0x020 (fun v => .txSetaddr (v.extractLsb' 0 7)) ∧ CommandCode 0x10 .txClr ∧
  ∀ s : State,
    (∀ a : BitVec 7, exec (.txSetaddr a) s = .next { s with txAddr := a }) ∧
    exec .txClr s = .next { s with txp := [], txNonascii := false, txOvf := false }

/-- TX_PUSH sets each flag whose condition holds and stores the byte where neither holds (41_serializer.md R163). -/
def Obligations.TxPushStoresOrFlags : Prop :=
  RegisterWrite 0x024 (fun v => .txPush (v.extractLsb' 0 8)) ∧
  ∀ (s : State) (b : Byte), exec (.txPush b) s = .next { s with
    txNonascii := s.txNonascii || decide (128 ≤ b.toNat)
    txOvf := s.txOvf || decide (s.txp.length = Config.txCap)
    txp := if b.toNat < 128 ∧ s.txp.length < Config.txCap then s.txp ++ [b] else s.txp }

/-- TX_ENCODE, when not refused, queues the whole frame and changes nothing else (41_serializer.md R165). -/
def Obligations.TxEncodeQueuesTheFrame : Prop :=
  CommandCode 0x11 .txEncode ∧
  ∀ s : State, s.txNonascii = false → s.txOvf = false → s.txq = [] →
    exec .txEncode s = .next { s with
      txq := [0x80#8 ||| s.txAddr.setWidth 8] ++ s.txp ++ [0x80#8 ||| s.txAddr.setWidth 8] ++
        [BitVec.ofNat 8 ((2 * s.txAddr.toNat + (s.txp.map BitVec.toNat).sum) % 128)] }

/-- TX_ENCODE is refused where a payload byte was rejected or the queue is not empty: it sets TXBAD, TXBUSY, or both,
each where its condition holds, and changes nothing else (41_serializer.md R166). -/
def Obligations.TxEncodeRefusedSetsTheFlags : Prop :=
  ∀ s : State, (s.txNonascii = true ∨ s.txOvf = true ∨ s.txq ≠ []) →
    exec .txEncode s = .next { s with
      herr := s.herr ||| (if s.txNonascii = true ∨ s.txOvf = true then 0b10000#5 else 0)
                     ||| (if s.txq ≠ [] then 0b01000#5 else 0) }

/-- TX_POP emits the head of the queue; on an empty queue nothing changes (41_serializer.md R170; log 2). -/
def Obligations.TxPopEmitsTheHead : Prop :=
  (∀ (s : State) (b : Byte) (q : List Byte), s.txq = b :: q →
    exec .txPop s = .next { s with txq := q, txStream := s.txStream ++ [b] }) ∧
  (∀ s : State, s.txq = [] → exec .txPop s = .next s)

/-- The shape of a frame: `len(p)` + 3 bytes, bit 7 set in exactly the first and the second-last byte, and the trailer
`(2*A + sum) mod 128` (41_serializer.md R160, R161). -/
def Obligations.EncodedFrameShape : Prop :=
  ∀ (a : BitVec 7) (p : List Byte), AsciiBytes p →
    (encodeFrame a p).length = p.length + 3 ∧
    (∀ k < p.length + 3, (marker (Memory.read (encodeFrame a p) k) = true ↔ k = 0 ∨ k = p.length + 1)) ∧
    (Memory.read (encodeFrame a p) (p.length + 2)).toNat = (2 * a.toNat + (p.map BitVec.toNat).sum) % 128

/-- The serializer neither reads nor writes FR_STATE, `rxbuf`, DEC or the framer flags (41_serializer.md R167). -/
def Obligations.SerializerIndependentOfFramer : Prop :=
  ∀ (i : Instr) (s t : State) (f : FrState) (buf : List Byte) (d : Dec) (c o x y : Bool),
    (i = .txClr ∨ i = .txEncode ∨ i = .txPop ∨ (∃ a, i = .txSetaddr a) ∨ (∃ b, i = .txPush b)) →
    exec i s = .next t →
    exec i { s with frState := f, rxbuf := buf, dec := d, frComplete := c, frTimedout := o, frOvf := x, frStray := y }
      = .next { t with
          frState := f, rxbuf := buf, dec := d, frComplete := c, frTimedout := o, frOvf := x, frStray := y }

/-- What has been emitted and what is queued grow only by the frame of a TX_ENCODE that is not refused: bytes leave in
order and none is lost, BLK_RESET excepted (41_serializer.md R170, R171). -/
def Obligations.TransmitStreamGrowsByFrames : Prop :=
  ∀ (i : Instr) (s t : State), exec i s = .next t → i ≠ .blkReset →
    t.txStream ++ t.txq = (s.txStream ++ s.txq) ++
      (if i = .txEncode ∧ s.txNonascii = false ∧ s.txOvf = false ∧ s.txq = [] then encodeFrame s.txAddr s.txp else [])

/-- The transmit stream and the queue together stay a concatenation of whole request frames under every operation but
BLK_RESET, from every state that meets the invariant (41_serializer.md R171, 10_state.md R50). -/
def Obligations.TransmitStreamIsWholeFrames : Prop :=
  ∀ (i : Instr) (s t : State), Inv s → WholeFrames s → i ≠ .blkReset → exec i s = .next t → WholeFrames t

/-- The reads of the serializer: TX_ADDR, TX_STAT and the window TXP[k] (41_serializer.md R172, 10_state.md R32, R35,
R48). -/
def Obligations.SerializerReads : Prop :=
  ∀ s : State,
    (∃ w : Word, exec .rdTxAddr s = .next { s with readData := some w } ∧ w.toNat = s.txAddr.toNat) ∧
    (∃ w : Word, exec .rdTxStat s = .next { s with readData := some w } ∧
      w.extractLsb' 0 8 = BitVec.ofNat 8 s.txp.length ∧ w.extractLsb' 8 8 = BitVec.ofNat 8 s.txq.length ∧
      w.getLsbD 16 = s.txNonascii ∧ w.getLsbD 17 = s.txOvf ∧ w.extractLsb' 18 14 = 0) ∧
    (∀ k : Nat, ∃ w : Word, exec (.rdTxp k) s = .next { s with readData := some w } ∧
      (∀ h : k < s.txp.length, w.toNat = (s.txp[k]).toNat) ∧ (s.txp.length ≤ k → w = 0))

/-! ### Deserializer -/

/-- The gating table: each deserializer and framer write, in a state that does not admit it, sets HERR.BADSTATE and
changes nothing else (43_framer.md R245). -/
def Obligations.GatedWritesRefused : Prop :=
  (∀ (s : State) (b : Byte), s.frState ≠ .idle →
    exec (.rxPush b) s = .next { s with herr := s.herr ||| 0b00100#5 }) ∧
  (∀ (s : State) (i : Instr), s.frState = .accum →
    (i = .rxClr ∨ i = .rxDecode ∨ i = .frStart ∨ (∃ e, i = .frSetctrl e) ∨ (∃ v, i = .frSettmo v)) →
    exec i s = .next { s with herr := s.herr ||| 0b00100#5 })

/-- RX_PUSH, in IDLE, stores the byte where there is room and sets FR_OVF where the buffer is full; DEC is not written
(42_deserializer.md R192). -/
def Obligations.RxPushStoresOrOverflows : Prop :=
  RegisterWrite 0x030 (fun v => .rxPush (v.extractLsb' 0 8)) ∧
  ∀ (s : State) (b : Byte), s.frState = .idle →
    (s.rxbuf.length < Config.rxCap → exec (.rxPush b) s = .next { s with rxbuf := s.rxbuf ++ [b] }) ∧
    (s.rxbuf.length = Config.rxCap → exec (.rxPush b) s = .next { s with frOvf := true })

/-- RX_CLR and RX_DECODE, in IDLE and DONE: RX_CLR empties the buffer, clears the framer flags and leaves IDLE;
RX_DECODE latches the decode of the buffer; nothing else changes (42_deserializer.md R193, R194). -/
def Obligations.RxClrAndRxDecode : Prop :=
  CommandCode 0x20 .rxClr ∧ CommandCode 0x21 .rxDecode ∧
  ∀ s : State, s.frState ≠ .accum →
    exec .rxClr s = .next { s with
      rxbuf := [], frComplete := false, frTimedout := false, frOvf := false, frStray := false, frState := .idle
      dec := { Dec.zero with verdict := .errMalformed, reason := .echoShort } } ∧
    exec .rxDecode s = .next { s with dec := decodeRx s.rxbuf }

/-- Step 1 of `Decode`: too short, then unrecognized status, then echo checksum, in this order, with the fields each
leaves (42_deserializer.md R198, R199, R200, R201). -/
def Obligations.EchoStepVerdicts : Prop :=
  ∀ (map : Byte → Byte) (a c st x r : Byte) (rest s : List Byte),
    (s.length < 5 → decodeFrame map s = { Dec.zero with verdict := .errMalformed, reason := .echoShort }) ∧
    (map st = 0 → decodeFrame map (a :: c :: st :: x :: r :: rest) = { Dec.zero with
      verdict := .errStatus, eAddr := a, eCmd := c, eStatus := st, eRsvd := x
      eComp := csum [a, c, st, x], eRcvd := r }) ∧
    (map st ≠ 0 → r.toNat ≠ (a.toNat + c.toNat + st.toNat + x.toNat) % 128 →
      decodeFrame map (a :: c :: st :: x :: r :: rest) = { Dec.zero with
        verdict := .errCsum, sect := false, eAddr := a, eCmd := c, eStatus := st, eRsvd := x
        eComp := csum [a, c, st, x], eRcvd := r, sid := map st })

/-- The incomplete data sections after a valid echo section, with the fields each leaves: header short, no terminator,
no trailer (42_deserializer.md R204). -/
def Obligations.IncompleteDataSectionVerdicts : Prop :=
  ∀ (map : Byte → Byte) (e : List Byte), EchoSection map e →
    (∀ a : Byte, decodeFrame map (e ++ [a]) = { echoFields map e with
      verdict := .errMalformed, reason := .dataHdrShort, echoOk := true }) ∧
    (∀ (a c : Byte) (p : List Byte), a ∉ p → decodeFrame map (e ++ [a, c] ++ p) = { echoFields map e with
      verdict := .errMalformed, reason := .noTerminator, echoOk := true, dAddr := a, dCmd := c }) ∧
    (∀ (a c : Byte) (p : List Byte), a ∉ p → decodeFrame map (e ++ [a, c] ++ p ++ [a]) = { echoFields map e with
      verdict := .errMalformed, reason := .noTrailer, echoOk := true, dAddr := a, dCmd := c
      dTerm := BitVec.ofNat 8 (7 + p.length), dPlen := BitVec.ofNat 8 p.length })

/-- The two complete data sections after a valid echo section: with the right trailer OK_ECHO_DATA, bytes after the
trailer showing only in `trailing`; with any other trailer, one with bit 7 set among them, ERR_CSUM of section 1 with
the computed and the received value (42_deserializer.md R205, R206). -/
def Obligations.DataTrailerVerdicts : Prop :=
  ∀ (map : Byte → Byte) (e : List Byte), EchoSection map e →
    ∀ (a c r : Byte) (p rest : List Byte), a ∉ p →
      let found := { echoFields map e with
        echoOk := true, dAddr := a, dCmd := c, dTerm := BitVec.ofNat 8 (7 + p.length), dPlen := BitVec.ofNat 8 p.length
        dComp := csum ([a, c] ++ p ++ [a]), dRcvd := r }
      decodeFrame map (e ++ [a, c] ++ p ++ [a, r] ++ rest) =
        if r.toNat = (csum ([a, c] ++ p ++ [a])).toNat then { found with
          verdict := .okEchoData, dataOk := true, consumed := BitVec.ofNat 8 (9 + p.length)
          trailing := decide (rest ≠ []) }
        else { found with verdict := .errCsum, sect := true }

/-- `Decode` accepts exactly the valid responses: OK_ECHO for an echo section alone, OK_ECHO_DATA for an echo section
and a data section, with whatever follows; the first byte equal to byte 5 terminates (42_deserializer.md R203, R205,
R207; 30_encoding.md R103, R104, R105). -/
def Obligations.DecodeAcceptsExactlyValidResponses : Prop :=
  ∀ (map : Byte → Byte) (s : List Byte),
    ((decodeFrame map s).verdict = .okEcho ↔ EchoSection map s) ∧
    ((decodeFrame map s).verdict = .okEchoData ↔
      ∃ e d rest a c p, s = e ++ d ++ rest ∧ EchoSection map e ∧ DataSection a c p d)

/-- Echo round trip: the five bytes of an echo section built with the marker set or clear decode with verdict OK_ECHO
and give back the address, the command, the status and its identifier (42_deserializer.md R209). -/
def Obligations.EchoRoundTrip : Prop :=
  ∀ (map : Byte → Byte) (a : BitVec 7) (b0 c st x : Byte), map st ≠ 0 →
    (b0 = 0x80#8 ||| a.setWidth 8 ∨ b0 = a.setWidth 8) →
    let r := decodeFrame map [b0, c, st, x, (csum [b0, c, st, x]).setWidth 8]
    r.verdict = .okEcho ∧ low7 r.eAddr = a ∧ r.eCmd = c ∧ r.eStatus = st ∧ r.sid = map st

/-- Data round trip: a valid echo section followed by a data section whose payload holds no byte equal to its address
byte decodes with verdict OK_ECHO_DATA, and the windows give back the payload (42_deserializer.md R210). -/
def Obligations.DataRoundTrip : Prop :=
  ∀ (map : Byte → Byte) (e p d : List Byte) (a c : Byte), EchoSection map e → DataSection a c p d →
    (e ++ d).length ≤ Config.rxCap →
    let r := decodeFrame map (e ++ d)
    r.verdict = .okEchoData ∧ r.dPlen.toNat = p.length ∧ r.dTerm.toNat = 7 + p.length ∧
    r.consumed.toNat = 9 + p.length ∧ r.trailing = false ∧
    ∀ (s : State) (k : Nat) (h : k < p.length), s.rxbuf = e ++ d →
      ∃ w : Word, exec (.rdRxb (7 + k)) s = .next { s with readData := some w } ∧ w.toNat = (p[k]).toNat

/-- Behaviour under extension: ERR_STATUS and ERR_CSUM are permanent, and OK_ECHO_DATA changes only in `trailing`
(42_deserializer.md R208 (a), (b)). -/
def Obligations.VerdictsUnderExtension : Prop :=
  ∀ (map : Byte → Byte) (s more : List Byte), more ≠ [] →
    ((decodeFrame map s).verdict = .errStatus ∨ (decodeFrame map s).verdict = .errCsum →
      decodeFrame map (s ++ more) = decodeFrame map s) ∧
    ((decodeFrame map s).verdict = .okEchoData →
      decodeFrame map (s ++ more) = { decodeFrame map s with trailing := true })

/-- DEC is written only by BLK_RESET, RX_CLR, FR_START, RX_DECODE and a byte that an attempt stores, each with the
decode R46 names; RX_PUSH does not write it (10_state.md R46). -/
def Obligations.DecWrittenOnlyByItsOperations : Prop :=
  ∀ (i : Instr) (s t : State), exec i s = .next t →
    (i = .blkReset → t.dec = decodeRx []) ∧
    ((i = .rxClr ∨ i = .frStart) ∧ s.frState ≠ .accum → t.dec = decodeRx []) ∧
    (i = .rxDecode ∧ s.frState ≠ .accum → t.dec = decodeRx s.rxbuf) ∧
    (∀ b, stores i s b → t.dec = decodeRx (s.rxbuf ++ [b])) ∧
    (t.dec ≠ s.dec → i = .blkReset ∨ ((i = .rxClr ∨ i = .frStart ∨ i = .rxDecode) ∧ s.frState ≠ .accum) ∨
      ∃ b, stores i s b)

/-- The reads of the decode result: every field of DEC at its bits, zeros elsewhere; and the window
RXB[k], which reads byte k of the buffer below its valid length and 0 from there on (42_deserializer.md R212,
10_state.md R41 to R45, R47). -/
def Obligations.DecodeResultReads : Prop :=
  ∀ s : State,
    (∃ w : Word, exec .rdDecStat s = .next { s with readData := some w } ∧
      w.extractLsb' 0 3 = verdictCode s.dec.verdict ∧ w.extractLsb' 4 3 = reasonCode s.dec.reason ∧
      w.getLsbD 8 = s.dec.sect ∧ w.getLsbD 9 = s.dec.echoOk ∧ w.getLsbD 10 = s.dec.dataOk ∧
      w.getLsbD 11 = s.dec.trailing ∧ w.extractLsb' 16 8 = s.dec.consumed ∧
      w.getLsbD 3 = false ∧ w.getLsbD 7 = false ∧ w.extractLsb' 12 4 = 0 ∧ w.extractLsb' 24 8 = 0) ∧
    (∃ w : Word, exec .rdDecEcho s = .next { s with readData := some w } ∧
      w.extractLsb' 0 8 = s.dec.eAddr ∧ w.extractLsb' 8 8 = s.dec.eCmd ∧
      w.extractLsb' 16 8 = s.dec.eStatus ∧ w.extractLsb' 24 8 = s.dec.eRsvd) ∧
    (∃ w : Word, exec .rdDecEcho2 s = .next { s with readData := some w } ∧
      w.extractLsb' 0 7 = s.dec.eComp ∧ w.getLsbD 7 = false ∧ w.extractLsb' 8 8 = s.dec.eRcvd ∧
      w.extractLsb' 16 8 = s.dec.sid ∧ w.extractLsb' 24 8 = 0) ∧
    (∃ w : Word, exec .rdDecData s = .next { s with readData := some w } ∧
      w.extractLsb' 0 8 = s.dec.dAddr ∧ w.extractLsb' 8 8 = s.dec.dCmd ∧
      w.extractLsb' 16 8 = s.dec.dPlen ∧ w.extractLsb' 24 8 = s.dec.dTerm) ∧
    (∃ w : Word, exec .rdDecData2 s = .next { s with readData := some w } ∧
      w.extractLsb' 0 7 = s.dec.dComp ∧ w.getLsbD 7 = false ∧ w.extractLsb' 8 8 = s.dec.dRcvd ∧
      w.extractLsb' 16 16 = 0) ∧
    (∀ k : Nat, ∃ w : Word, exec (.rdRxb k) s = .next { s with readData := some w } ∧
      (∀ h : k < s.rxbuf.length, w.toNat = (s.rxbuf[k]).toNat) ∧ (s.rxbuf.length ≤ k → w = 0))

/-! ### Framer -/

/-- FR_START, in IDLE and DONE, begins an attempt; a budget of 0 ends it at once (43_framer.md R233). -/
def Obligations.FrStartBeginsAnAttempt : Prop :=
  CommandCode 0x22 .frStart ∧
  ∀ s : State, s.frState ≠ .accum →
    exec .frStart s = .next { s with
      rxbuf := [], frComplete := false, frOvf := false, frStray := false
      dec := { Dec.zero with verdict := .errMalformed, reason := .echoShort }
      frRemain := s.frTimeout
      frState := if s.frTimeout = 0 then .done else .accum
      frTimedout := if s.frTimeout = 0 then true else false }

/-- FR_SETCTRL and FR_SETTMO, in IDLE and DONE, store their operand and change nothing else (43_framer.md R240,
R241). -/
def Obligations.FramerSettings : Prop :=
  RegisterWrite 0x034 (fun v => .frSetctrl (v.getLsbD 0)) ∧ RegisterWrite 0x038 (fun v => .frSettmo v) ∧
  ∀ s : State, s.frState ≠ .accum →
    (∀ e : Bool, exec (.frSetctrl e) s = .next { s with expectData := e }) ∧
    (∀ v : Word, exec (.frSettmo v) s = .next { s with frTimeout := v })

/-- RX_BYTE: stored and decoded in ACCUM, ending the attempt where the decode is complete; dropped with FR_OVF where
the buffer is full; dropped with FR_STRAY outside an attempt (43_framer.md R232, R236, R237, R239). The receive stream
is the model's record of the delivered bytes, log 6. -/
def Obligations.RxByteStoresOrDrops : Prop :=
  ∀ (s : State) (b : Byte),
    (s.frState = .accum → s.rxbuf.length < Config.rxCap →
      let r := decodeRx (s.rxbuf ++ [b])
      let ends := r.verdict = .okEchoData ∨ (r.verdict = .okEcho ∧ s.expectData = false)
      exec (.rxByte b) s = .next { s with
        rxStream := s.rxStream ++ [b]
        rxbuf := s.rxbuf ++ [b]
        dec := r
        frState := if ends then .done else .accum
        frComplete := if ends then true else s.frComplete }) ∧
    (s.frState = .accum → s.rxbuf.length = Config.rxCap →
      exec (.rxByte b) s = .next { s with rxStream := s.rxStream ++ [b], frOvf := true }) ∧
    (s.frState ≠ .accum →
      exec (.rxByte b) s = .next { s with rxStream := s.rxStream ++ [b], frStray := true })

/-- A wire byte of a class has the effect of the same byte on the receive side: `1aaaaaaa` of 0x80 OR a, the two
classes with bit 7 clear of their seven bits. This is the model's reading of the table's WIRE rows, log 3
(30_encoding.md R100, R101; 43_framer.md R235). -/
def Obligations.WireBytesAreReceived : Prop :=
  ∀ (s : State) (x : BitVec 7),
    (∃ t, exec (.addrByte x) s = .next t ∧ exec (.rxByte (0x80#8 ||| x.setWidth 8)) s = .next t) ∧
    (∃ t, exec (.csumByte x) s = .next t ∧ exec (.rxByte (x.setWidth 8)) s = .next t) ∧
    (∃ t, exec (.payloadByte x) s = .next t ∧ exec (.rxByte (x.setWidth 8)) s = .next t)

/-- TICK counts down in ACCUM and times the attempt out at its last tick; elsewhere it has no effect
(43_framer.md R238). -/
def Obligations.TickCountsDown : Prop :=
  ∀ s : State,
    (s.frState = .accum → 1 < s.frRemain.toNat → exec .tick s = .next { s with frRemain := s.frRemain - 1 }) ∧
    (s.frState = .accum → s.frRemain = 1 →
      exec .tick s = .next { s with frRemain := 0, frState := .done, frTimedout := true }) ∧
    (s.frState ≠ .accum → exec .tick s = .next s)

/-- An attempt started with budget T >= 1 is still running after fewer than T ticks and ends by timeout at the T-th,
where no byte arrives (43_framer.md R243). -/
def Obligations.AttemptTimesOutAtItsBudget : Prop :=
  ∀ (s : State) (n : Nat), s.frState ≠ .accum → 1 ≤ s.frTimeout.toNat → n ≤ s.frTimeout.toNat →
    ∃ t, execAll (.frStart :: List.replicate n .tick) s = .next t ∧
      t.frRemain.toNat = s.frTimeout.toNat - n ∧
      (n < s.frTimeout.toNat → t.frState = .accum ∧ t.frTimedout = false ∧ t.frComplete = false) ∧
      (n = s.frTimeout.toNat → t.frState = .done ∧ t.frTimedout = true ∧ t.frComplete = false)

/-- FR_STATE moves by the transitions of R231 and by no others (43_framer.md R231). -/
def Obligations.FramerTransitionsExactly : Prop :=
  (∀ (i : Instr) (s t : State), exec i s = .next t →
    (i = .frStart → s.frState ≠ .accum → s.frTimeout ≠ 0 → t.frState = .accum) ∧
    (i = .frStart → s.frState ≠ .accum → s.frTimeout = 0 → t.frState = .done ∧ t.frTimedout = true) ∧
    (∀ b, stores i s b →
      t.frState = (if complete (decodeRx (s.rxbuf ++ [b])) s.expectData then .done else .accum) ∧
      t.frComplete = (s.frComplete || complete (decodeRx (s.rxbuf ++ [b])) s.expectData)) ∧
    (i = .tick → s.frState = .accum → s.frRemain = 1 → t.frState = .done ∧ t.frTimedout = true) ∧
    (i = .rxClr → s.frState ≠ .accum → t.frState = .idle) ∧
    (i = .blkReset → t.frState = .idle) ∧
    (t.frState ≠ s.frState →
      (i = .frStart ∧ s.frState ≠ .accum) ∨
      (∃ b, stores i s b ∧ complete (decodeRx (s.rxbuf ++ [b])) s.expectData = true) ∨
      (i = .tick ∧ s.frState = .accum ∧ s.frRemain = 1) ∨
      (i = .rxClr ∧ s.frState ≠ .accum) ∨ i = .blkReset)) ∧
  (∀ (s : State) (rest : List Input), s.pending = .reset true :: rest →
    ∃ t, step s = .next t ∧ t.frState = .idle)

/-- In ACCUM no host operation but BLK_RESET ends the attempt or changes the buffer, the result, the budget, the
countdown, EXPECT_DATA or the framer flags (43_framer.md R244). -/
def Obligations.HostCannotEndAnAttempt : Prop :=
  ∀ (i : Instr) (s t : State), s.frState = .accum → i ≠ .blkReset →
    (i.row.format = .cmd ∨ i.row.format = .regw ∨ i.row.format = .regr) → exec i s = .next t →
    t.frState = .accum ∧ t.rxbuf = s.rxbuf ∧ t.dec = s.dec ∧ t.frRemain = s.frRemain ∧
    t.frTimeout = s.frTimeout ∧ t.expectData = s.expectData ∧ t.frComplete = s.frComplete ∧
    t.frTimedout = s.frTimedout ∧ t.frOvf = s.frOvf ∧ t.frStray = s.frStray

/-- A finished attempt is stable until FR_START, RX_CLR or BLK_RESET: only FR_STRAY can still be set
(43_framer.md R242). -/
def Obligations.FinishedAttemptIsStable : Prop :=
  ∀ (i : Instr) (s t : State), Inv s → s.frState = .done → i ≠ .frStart → i ≠ .rxClr → i ≠ .blkReset →
    exec i s = .next t →
    t.frState = .done ∧ t.rxbuf = s.rxbuf ∧ t.dec = s.dec ∧ t.frRemain = s.frRemain ∧
    t.frComplete = s.frComplete ∧ t.frTimedout = s.frTimedout ∧ t.frOvf = s.frOvf ∧
    (t.frStray ≠ s.frStray → t.frStray = true ∧ ∃ b, delivered i = some b)

/-- The reads of the framer: FR_CTRL, FR_TIMEOUT, FR_REMAIN and FR_STAT (43_framer.md R247, 10_state.md R37 to R39). -/
def Obligations.FramerReads : Prop :=
  ∀ s : State,
    (∃ w : Word, exec .rdFrCtrl s = .next { s with readData := some w } ∧ w.toNat = s.expectData.toNat) ∧
    exec .rdFrTimeout s = .next { s with readData := some s.frTimeout } ∧
    exec .rdFrRemain s = .next { s with readData := some s.frRemain } ∧
    (∃ w : Word, exec .rdFrStat s = .next { s with readData := some w } ∧
      w.extractLsb' 0 2 = frStateCode s.frState ∧ w.getLsbD 2 = s.frComplete ∧ w.getLsbD 3 = s.frTimedout ∧
      w.getLsbD 4 = s.frOvf ∧ w.getLsbD 5 = s.frStray ∧ w.extractLsb' 6 2 = 0 ∧
      w.extractLsb' 8 8 = BitVec.ofNat 8 s.rxbuf.length ∧ w.extractLsb' 16 16 = 0)

/-! ### Whole-machine rules -/

/-- A sticky flag is cleared only by the operations R23 and R293 name: the block never clears one on its own
(60_exceptions.md R293, 10_state.md R23). -/
def Obligations.StickyFlagsClearedOnlyByName : Prop :=
  ∀ (i : Instr) (s t : State), exec i s = .next t → i ≠ .blkReset →
    (∀ k < 5, s.herr.getLsbD k = true → t.herr.getLsbD k = true ∨ ∃ m, i = .herrW1c m ∧ m.getLsbD k = true) ∧
    (i ≠ .txClr → (s.txNonascii = true → t.txNonascii = true) ∧ (s.txOvf = true → t.txOvf = true)) ∧
    (i ≠ .frStart → i ≠ .rxClr →
      (s.frComplete = true → t.frComplete = true) ∧ (s.frTimedout = true → t.frTimedout = true) ∧
      (s.frOvf = true → t.frOvf = true) ∧ (s.frStray = true → t.frStray = true))

/-- A flag is set only by the event R23 lists for it (10_state.md R23). BADCMD and BADACC are set by no instruction:
they come of a rejected access, which has its own statements. -/
def Obligations.FlagsSetOnlyByTheirEvents : Prop :=
  ∀ (i : Instr) (s t : State), exec i s = .next t →
    (t.herr.getLsbD 0 = true → s.herr.getLsbD 0 = true) ∧
    (t.herr.getLsbD 1 = true → s.herr.getLsbD 1 = true) ∧
    (t.herr.getLsbD 2 = true → s.herr.getLsbD 2 = true ∨
      (s.frState = .accum ∧
        (i = .rxClr ∨ i = .rxDecode ∨ i = .frStart ∨ (∃ e, i = .frSetctrl e) ∨ (∃ v, i = .frSettmo v))) ∨
      (s.frState ≠ .idle ∧ ∃ b, i = .rxPush b)) ∧
    (t.herr.getLsbD 3 = true → s.herr.getLsbD 3 = true ∨ (i = .txEncode ∧ s.txq ≠ [])) ∧
    (t.herr.getLsbD 4 = true → s.herr.getLsbD 4 = true ∨
      (i = .txEncode ∧ (s.txNonascii = true ∨ s.txOvf = true))) ∧
    (t.txNonascii = true → s.txNonascii = true ∨ ∃ b, i = .txPush b ∧ 128 ≤ b.toNat) ∧
    (t.txOvf = true → s.txOvf = true ∨ ∃ b, i = .txPush b ∧ s.txp.length = Config.txCap) ∧
    (t.frComplete = true → s.frComplete = true ∨
      ∃ b, stores i s b ∧ complete (decodeRx (s.rxbuf ++ [b])) s.expectData = true) ∧
    (t.frTimedout = true → s.frTimedout = true ∨ (i = .tick ∧ s.frState = .accum ∧ s.frRemain = 1) ∨
      (i = .frStart ∧ s.frState ≠ .accum ∧ s.frTimeout = 0)) ∧
    (t.frOvf = true → s.frOvf = true ∨ (Config.rxCap ≤ s.rxbuf.length ∧
      ((s.frState = .idle ∧ ∃ b, i = .rxPush b) ∨ (s.frState = .accum ∧ ∃ b, delivered i = some b)))) ∧
    (t.frStray = true → s.frStray = true ∨ (s.frState ≠ .accum ∧ ∃ b, delivered i = some b))

/-- The invariants of R50 hold right after reset (10_state.md R50, R51). -/
def Obligations.InvariantsHoldAtReset : Prop := Inv State.reset ∧ ResetHeld State.reset ∧ WholeFrames State.reset

/-- Every step keeps the invariants of R50, from every state that meets them (10_state.md R50). -/
def Obligations.InvariantsKeptByEveryStep : Prop :=
  ∀ s t : State, Inv s → step s = .next t → Inv t
end

