-- ==== Sys2Proof/Laws/State.lean ====
section
/-! SUPPORT. What each named update leaves in each field of the state, one lemma per field per update. -/

namespace Sys2Proof.Machine

/-! ### Recording a refusal -/

@[simp] theorem refuse_herr (s : State) (e : HostErr) : (s.refuse e).herr = s.herr ||| herrMask e := rfl
@[simp] theorem refuse_csAcc (s : State) (e : HostErr) : (s.refuse e).csAcc = s.csAcc := rfl
@[simp] theorem refuse_csRcvd (s : State) (e : HostErr) : (s.refuse e).csRcvd = s.csRcvd := rfl
@[simp] theorem refuse_txAddr (s : State) (e : HostErr) : (s.refuse e).txAddr = s.txAddr := rfl
@[simp] theorem refuse_txp (s : State) (e : HostErr) : (s.refuse e).txp = s.txp := rfl
@[simp] theorem refuse_txNonascii (s : State) (e : HostErr) : (s.refuse e).txNonascii = s.txNonascii := rfl
@[simp] theorem refuse_txOvf (s : State) (e : HostErr) : (s.refuse e).txOvf = s.txOvf := rfl
@[simp] theorem refuse_txq (s : State) (e : HostErr) : (s.refuse e).txq = s.txq := rfl
@[simp] theorem refuse_rxbuf (s : State) (e : HostErr) : (s.refuse e).rxbuf = s.rxbuf := rfl
@[simp] theorem refuse_expectData (s : State) (e : HostErr) : (s.refuse e).expectData = s.expectData := rfl
@[simp] theorem refuse_frTimeout (s : State) (e : HostErr) : (s.refuse e).frTimeout = s.frTimeout := rfl
@[simp] theorem refuse_frRemain (s : State) (e : HostErr) : (s.refuse e).frRemain = s.frRemain := rfl
@[simp] theorem refuse_frState (s : State) (e : HostErr) : (s.refuse e).frState = s.frState := rfl
@[simp] theorem refuse_frComplete (s : State) (e : HostErr) : (s.refuse e).frComplete = s.frComplete := rfl
@[simp] theorem refuse_frTimedout (s : State) (e : HostErr) : (s.refuse e).frTimedout = s.frTimedout := rfl
@[simp] theorem refuse_frOvf (s : State) (e : HostErr) : (s.refuse e).frOvf = s.frOvf := rfl
@[simp] theorem refuse_frStray (s : State) (e : HostErr) : (s.refuse e).frStray = s.frStray := rfl
@[simp] theorem refuse_dec (s : State) (e : HostErr) : (s.refuse e).dec = s.dec := rfl
@[simp] theorem refuse_txStream (s : State) (e : HostErr) : (s.refuse e).txStream = s.txStream := rfl
@[simp] theorem refuse_rxStream (s : State) (e : HostErr) : (s.refuse e).rxStream = s.rxStream := rfl
@[simp] theorem refuse_readData (s : State) (e : HostErr) : (s.refuse e).readData = s.readData := rfl
@[simp] theorem refuse_pending (s : State) (e : HostErr) : (s.refuse e).pending = s.pending := rfl
@[simp] theorem refuse_resetLine (s : State) (e : HostErr) : (s.refuse e).resetLine = s.resetLine := rfl

/-! ### Clearing host-error flags -/

@[simp] theorem clearHerr_herr (s : State) (m : BitVec 5) : (s.clearHerr m).herr = s.herr &&& ~~~m := rfl
@[simp] theorem clearHerr_csAcc (s : State) (m : BitVec 5) : (s.clearHerr m).csAcc = s.csAcc := rfl
@[simp] theorem clearHerr_csRcvd (s : State) (m : BitVec 5) : (s.clearHerr m).csRcvd = s.csRcvd := rfl
@[simp] theorem clearHerr_txAddr (s : State) (m : BitVec 5) : (s.clearHerr m).txAddr = s.txAddr := rfl
@[simp] theorem clearHerr_txp (s : State) (m : BitVec 5) : (s.clearHerr m).txp = s.txp := rfl
@[simp] theorem clearHerr_txNonascii (s : State) (m : BitVec 5) : (s.clearHerr m).txNonascii = s.txNonascii := rfl
@[simp] theorem clearHerr_txOvf (s : State) (m : BitVec 5) : (s.clearHerr m).txOvf = s.txOvf := rfl
@[simp] theorem clearHerr_txq (s : State) (m : BitVec 5) : (s.clearHerr m).txq = s.txq := rfl
@[simp] theorem clearHerr_rxbuf (s : State) (m : BitVec 5) : (s.clearHerr m).rxbuf = s.rxbuf := rfl
@[simp] theorem clearHerr_expectData (s : State) (m : BitVec 5) : (s.clearHerr m).expectData = s.expectData := rfl
@[simp] theorem clearHerr_frTimeout (s : State) (m : BitVec 5) : (s.clearHerr m).frTimeout = s.frTimeout := rfl
@[simp] theorem clearHerr_frRemain (s : State) (m : BitVec 5) : (s.clearHerr m).frRemain = s.frRemain := rfl
@[simp] theorem clearHerr_frState (s : State) (m : BitVec 5) : (s.clearHerr m).frState = s.frState := rfl
@[simp] theorem clearHerr_frComplete (s : State) (m : BitVec 5) : (s.clearHerr m).frComplete = s.frComplete := rfl
@[simp] theorem clearHerr_frTimedout (s : State) (m : BitVec 5) : (s.clearHerr m).frTimedout = s.frTimedout := rfl
@[simp] theorem clearHerr_frOvf (s : State) (m : BitVec 5) : (s.clearHerr m).frOvf = s.frOvf := rfl
@[simp] theorem clearHerr_frStray (s : State) (m : BitVec 5) : (s.clearHerr m).frStray = s.frStray := rfl
@[simp] theorem clearHerr_dec (s : State) (m : BitVec 5) : (s.clearHerr m).dec = s.dec := rfl
@[simp] theorem clearHerr_txStream (s : State) (m : BitVec 5) : (s.clearHerr m).txStream = s.txStream := rfl
@[simp] theorem clearHerr_rxStream (s : State) (m : BitVec 5) : (s.clearHerr m).rxStream = s.rxStream := rfl
@[simp] theorem clearHerr_readData (s : State) (m : BitVec 5) : (s.clearHerr m).readData = s.readData := rfl
@[simp] theorem clearHerr_pending (s : State) (m : BitVec 5) : (s.clearHerr m).pending = s.pending := rfl
@[simp] theorem clearHerr_resetLine (s : State) (m : BitVec 5) : (s.clearHerr m).resetLine = s.resetLine := rfl

/-! ### Answering a host read -/

@[simp] theorem reply_herr (s : State) (w : Word) : (s.reply w).herr = s.herr := rfl
@[simp] theorem reply_csAcc (s : State) (w : Word) : (s.reply w).csAcc = s.csAcc := rfl
@[simp] theorem reply_csRcvd (s : State) (w : Word) : (s.reply w).csRcvd = s.csRcvd := rfl
@[simp] theorem reply_txAddr (s : State) (w : Word) : (s.reply w).txAddr = s.txAddr := rfl
@[simp] theorem reply_txp (s : State) (w : Word) : (s.reply w).txp = s.txp := rfl
@[simp] theorem reply_txNonascii (s : State) (w : Word) : (s.reply w).txNonascii = s.txNonascii := rfl
@[simp] theorem reply_txOvf (s : State) (w : Word) : (s.reply w).txOvf = s.txOvf := rfl
@[simp] theorem reply_txq (s : State) (w : Word) : (s.reply w).txq = s.txq := rfl
@[simp] theorem reply_rxbuf (s : State) (w : Word) : (s.reply w).rxbuf = s.rxbuf := rfl
@[simp] theorem reply_expectData (s : State) (w : Word) : (s.reply w).expectData = s.expectData := rfl
@[simp] theorem reply_frTimeout (s : State) (w : Word) : (s.reply w).frTimeout = s.frTimeout := rfl
@[simp] theorem reply_frRemain (s : State) (w : Word) : (s.reply w).frRemain = s.frRemain := rfl
@[simp] theorem reply_frState (s : State) (w : Word) : (s.reply w).frState = s.frState := rfl
@[simp] theorem reply_frComplete (s : State) (w : Word) : (s.reply w).frComplete = s.frComplete := rfl
@[simp] theorem reply_frTimedout (s : State) (w : Word) : (s.reply w).frTimedout = s.frTimedout := rfl
@[simp] theorem reply_frOvf (s : State) (w : Word) : (s.reply w).frOvf = s.frOvf := rfl
@[simp] theorem reply_frStray (s : State) (w : Word) : (s.reply w).frStray = s.frStray := rfl
@[simp] theorem reply_dec (s : State) (w : Word) : (s.reply w).dec = s.dec := rfl
@[simp] theorem reply_txStream (s : State) (w : Word) : (s.reply w).txStream = s.txStream := rfl
@[simp] theorem reply_rxStream (s : State) (w : Word) : (s.reply w).rxStream = s.rxStream := rfl
@[simp] theorem reply_readData (s : State) (w : Word) : (s.reply w).readData = some w := rfl
@[simp] theorem reply_pending (s : State) (w : Word) : (s.reply w).pending = s.pending := rfl
@[simp] theorem reply_resetLine (s : State) (w : Word) : (s.reply w).resetLine = s.resetLine := rfl

/-! ### Emitting a byte -/

@[simp] theorem emit_herr (s : State) (b : Byte) : (s.emit b).herr = s.herr := rfl
@[simp] theorem emit_csAcc (s : State) (b : Byte) : (s.emit b).csAcc = s.csAcc := rfl
@[simp] theorem emit_csRcvd (s : State) (b : Byte) : (s.emit b).csRcvd = s.csRcvd := rfl
@[simp] theorem emit_txAddr (s : State) (b : Byte) : (s.emit b).txAddr = s.txAddr := rfl
@[simp] theorem emit_txp (s : State) (b : Byte) : (s.emit b).txp = s.txp := rfl
@[simp] theorem emit_txNonascii (s : State) (b : Byte) : (s.emit b).txNonascii = s.txNonascii := rfl
@[simp] theorem emit_txOvf (s : State) (b : Byte) : (s.emit b).txOvf = s.txOvf := rfl
@[simp] theorem emit_txq (s : State) (b : Byte) : (s.emit b).txq = s.txq := rfl
@[simp] theorem emit_rxbuf (s : State) (b : Byte) : (s.emit b).rxbuf = s.rxbuf := rfl
@[simp] theorem emit_expectData (s : State) (b : Byte) : (s.emit b).expectData = s.expectData := rfl
@[simp] theorem emit_frTimeout (s : State) (b : Byte) : (s.emit b).frTimeout = s.frTimeout := rfl
@[simp] theorem emit_frRemain (s : State) (b : Byte) : (s.emit b).frRemain = s.frRemain := rfl
@[simp] theorem emit_frState (s : State) (b : Byte) : (s.emit b).frState = s.frState := rfl
@[simp] theorem emit_frComplete (s : State) (b : Byte) : (s.emit b).frComplete = s.frComplete := rfl
@[simp] theorem emit_frTimedout (s : State) (b : Byte) : (s.emit b).frTimedout = s.frTimedout := rfl
@[simp] theorem emit_frOvf (s : State) (b : Byte) : (s.emit b).frOvf = s.frOvf := rfl
@[simp] theorem emit_frStray (s : State) (b : Byte) : (s.emit b).frStray = s.frStray := rfl
@[simp] theorem emit_dec (s : State) (b : Byte) : (s.emit b).dec = s.dec := rfl
@[simp] theorem emit_txStream (s : State) (b : Byte) : (s.emit b).txStream = s.txStream ++ [b] := rfl
@[simp] theorem emit_rxStream (s : State) (b : Byte) : (s.emit b).rxStream = s.rxStream := rfl
@[simp] theorem emit_readData (s : State) (b : Byte) : (s.emit b).readData = s.readData := rfl
@[simp] theorem emit_pending (s : State) (b : Byte) : (s.emit b).pending = s.pending := rfl
@[simp] theorem emit_resetLine (s : State) (b : Byte) : (s.emit b).resetLine = s.resetLine := rfl

/-! ### Pushing a payload byte -/

@[simp] theorem pushTx_herr (s : State) (b : Byte) : (s.pushTx b).herr = s.herr := rfl
@[simp] theorem pushTx_csAcc (s : State) (b : Byte) : (s.pushTx b).csAcc = s.csAcc := rfl
@[simp] theorem pushTx_csRcvd (s : State) (b : Byte) : (s.pushTx b).csRcvd = s.csRcvd := rfl
@[simp] theorem pushTx_txAddr (s : State) (b : Byte) : (s.pushTx b).txAddr = s.txAddr := rfl
@[simp] theorem pushTx_txp (s : State) (b : Byte) : (s.pushTx b).txp = (if marker b = false ∧ s.txp.length < Config.txCap then Memory.append s.txp b else s.txp) := rfl
@[simp] theorem pushTx_txNonascii (s : State) (b : Byte) : (s.pushTx b).txNonascii = (s.txNonascii || marker b) := rfl
@[simp] theorem pushTx_txOvf (s : State) (b : Byte) : (s.pushTx b).txOvf = (s.txOvf || s.txp.length == Config.txCap) := rfl
@[simp] theorem pushTx_txq (s : State) (b : Byte) : (s.pushTx b).txq = s.txq := rfl
@[simp] theorem pushTx_rxbuf (s : State) (b : Byte) : (s.pushTx b).rxbuf = s.rxbuf := rfl
@[simp] theorem pushTx_expectData (s : State) (b : Byte) : (s.pushTx b).expectData = s.expectData := rfl
@[simp] theorem pushTx_frTimeout (s : State) (b : Byte) : (s.pushTx b).frTimeout = s.frTimeout := rfl
@[simp] theorem pushTx_frRemain (s : State) (b : Byte) : (s.pushTx b).frRemain = s.frRemain := rfl
@[simp] theorem pushTx_frState (s : State) (b : Byte) : (s.pushTx b).frState = s.frState := rfl
@[simp] theorem pushTx_frComplete (s : State) (b : Byte) : (s.pushTx b).frComplete = s.frComplete := rfl
@[simp] theorem pushTx_frTimedout (s : State) (b : Byte) : (s.pushTx b).frTimedout = s.frTimedout := rfl
@[simp] theorem pushTx_frOvf (s : State) (b : Byte) : (s.pushTx b).frOvf = s.frOvf := rfl
@[simp] theorem pushTx_frStray (s : State) (b : Byte) : (s.pushTx b).frStray = s.frStray := rfl
@[simp] theorem pushTx_dec (s : State) (b : Byte) : (s.pushTx b).dec = s.dec := rfl
@[simp] theorem pushTx_txStream (s : State) (b : Byte) : (s.pushTx b).txStream = s.txStream := rfl
@[simp] theorem pushTx_rxStream (s : State) (b : Byte) : (s.pushTx b).rxStream = s.rxStream := rfl
@[simp] theorem pushTx_readData (s : State) (b : Byte) : (s.pushTx b).readData = s.readData := rfl
@[simp] theorem pushTx_pending (s : State) (b : Byte) : (s.pushTx b).pending = s.pending := rfl
@[simp] theorem pushTx_resetLine (s : State) (b : Byte) : (s.pushTx b).resetLine = s.resetLine := rfl

/-! ### Emptying the receive buffer -/

@[simp] theorem emptyRx_herr (s : State) : s.emptyRx.herr = s.herr := rfl
@[simp] theorem emptyRx_csAcc (s : State) : s.emptyRx.csAcc = s.csAcc := rfl
@[simp] theorem emptyRx_csRcvd (s : State) : s.emptyRx.csRcvd = s.csRcvd := rfl
@[simp] theorem emptyRx_txAddr (s : State) : s.emptyRx.txAddr = s.txAddr := rfl
@[simp] theorem emptyRx_txp (s : State) : s.emptyRx.txp = s.txp := rfl
@[simp] theorem emptyRx_txNonascii (s : State) : s.emptyRx.txNonascii = s.txNonascii := rfl
@[simp] theorem emptyRx_txOvf (s : State) : s.emptyRx.txOvf = s.txOvf := rfl
@[simp] theorem emptyRx_txq (s : State) : s.emptyRx.txq = s.txq := rfl
@[simp] theorem emptyRx_rxbuf (s : State) : s.emptyRx.rxbuf = [] := rfl
@[simp] theorem emptyRx_expectData (s : State) : s.emptyRx.expectData = s.expectData := rfl
@[simp] theorem emptyRx_frTimeout (s : State) : s.emptyRx.frTimeout = s.frTimeout := rfl
@[simp] theorem emptyRx_frRemain (s : State) : s.emptyRx.frRemain = s.frRemain := rfl
@[simp] theorem emptyRx_frState (s : State) : s.emptyRx.frState = s.frState := rfl
@[simp] theorem emptyRx_frComplete (s : State) : s.emptyRx.frComplete = s.frComplete := rfl
@[simp] theorem emptyRx_frTimedout (s : State) : s.emptyRx.frTimedout = s.frTimedout := rfl
@[simp] theorem emptyRx_frOvf (s : State) : s.emptyRx.frOvf = s.frOvf := rfl
@[simp] theorem emptyRx_frStray (s : State) : s.emptyRx.frStray = s.frStray := rfl
@[simp] theorem emptyRx_dec (s : State) : s.emptyRx.dec = decodeRx [] := rfl
@[simp] theorem emptyRx_txStream (s : State) : s.emptyRx.txStream = s.txStream := rfl
@[simp] theorem emptyRx_rxStream (s : State) : s.emptyRx.rxStream = s.rxStream := rfl
@[simp] theorem emptyRx_readData (s : State) : s.emptyRx.readData = s.readData := rfl
@[simp] theorem emptyRx_pending (s : State) : s.emptyRx.pending = s.pending := rfl
@[simp] theorem emptyRx_resetLine (s : State) : s.emptyRx.resetLine = s.resetLine := rfl

/-! ### RX_CLR -/

@[simp] theorem clearRx_herr (s : State) : s.clearRx.herr = s.herr := rfl
@[simp] theorem clearRx_csAcc (s : State) : s.clearRx.csAcc = s.csAcc := rfl
@[simp] theorem clearRx_csRcvd (s : State) : s.clearRx.csRcvd = s.csRcvd := rfl
@[simp] theorem clearRx_txAddr (s : State) : s.clearRx.txAddr = s.txAddr := rfl
@[simp] theorem clearRx_txp (s : State) : s.clearRx.txp = s.txp := rfl
@[simp] theorem clearRx_txNonascii (s : State) : s.clearRx.txNonascii = s.txNonascii := rfl
@[simp] theorem clearRx_txOvf (s : State) : s.clearRx.txOvf = s.txOvf := rfl
@[simp] theorem clearRx_txq (s : State) : s.clearRx.txq = s.txq := rfl
@[simp] theorem clearRx_rxbuf (s : State) : s.clearRx.rxbuf = [] := rfl
@[simp] theorem clearRx_expectData (s : State) : s.clearRx.expectData = s.expectData := rfl
@[simp] theorem clearRx_frTimeout (s : State) : s.clearRx.frTimeout = s.frTimeout := rfl
@[simp] theorem clearRx_frRemain (s : State) : s.clearRx.frRemain = s.frRemain := rfl
@[simp] theorem clearRx_frState (s : State) : s.clearRx.frState = .idle := rfl
@[simp] theorem clearRx_frComplete (s : State) : s.clearRx.frComplete = false := rfl
@[simp] theorem clearRx_frTimedout (s : State) : s.clearRx.frTimedout = false := rfl
@[simp] theorem clearRx_frOvf (s : State) : s.clearRx.frOvf = false := rfl
@[simp] theorem clearRx_frStray (s : State) : s.clearRx.frStray = false := rfl
@[simp] theorem clearRx_dec (s : State) : s.clearRx.dec = decodeRx [] := rfl
@[simp] theorem clearRx_txStream (s : State) : s.clearRx.txStream = s.txStream := rfl
@[simp] theorem clearRx_rxStream (s : State) : s.clearRx.rxStream = s.rxStream := rfl
@[simp] theorem clearRx_readData (s : State) : s.clearRx.readData = s.readData := rfl
@[simp] theorem clearRx_pending (s : State) : s.clearRx.pending = s.pending := rfl
@[simp] theorem clearRx_resetLine (s : State) : s.clearRx.resetLine = s.resetLine := rfl

/-! ### Latching the decode -/

@[simp] theorem latchDec_herr (s : State) : s.latchDec.herr = s.herr := rfl
@[simp] theorem latchDec_csAcc (s : State) : s.latchDec.csAcc = s.csAcc := rfl
@[simp] theorem latchDec_csRcvd (s : State) : s.latchDec.csRcvd = s.csRcvd := rfl
@[simp] theorem latchDec_txAddr (s : State) : s.latchDec.txAddr = s.txAddr := rfl
@[simp] theorem latchDec_txp (s : State) : s.latchDec.txp = s.txp := rfl
@[simp] theorem latchDec_txNonascii (s : State) : s.latchDec.txNonascii = s.txNonascii := rfl
@[simp] theorem latchDec_txOvf (s : State) : s.latchDec.txOvf = s.txOvf := rfl
@[simp] theorem latchDec_txq (s : State) : s.latchDec.txq = s.txq := rfl
@[simp] theorem latchDec_rxbuf (s : State) : s.latchDec.rxbuf = s.rxbuf := rfl
@[simp] theorem latchDec_expectData (s : State) : s.latchDec.expectData = s.expectData := rfl
@[simp] theorem latchDec_frTimeout (s : State) : s.latchDec.frTimeout = s.frTimeout := rfl
@[simp] theorem latchDec_frRemain (s : State) : s.latchDec.frRemain = s.frRemain := rfl
@[simp] theorem latchDec_frState (s : State) : s.latchDec.frState = s.frState := rfl
@[simp] theorem latchDec_frComplete (s : State) : s.latchDec.frComplete = s.frComplete := rfl
@[simp] theorem latchDec_frTimedout (s : State) : s.latchDec.frTimedout = s.frTimedout := rfl
@[simp] theorem latchDec_frOvf (s : State) : s.latchDec.frOvf = s.frOvf := rfl
@[simp] theorem latchDec_frStray (s : State) : s.latchDec.frStray = s.frStray := rfl
@[simp] theorem latchDec_dec (s : State) : s.latchDec.dec = decodeRx s.rxbuf := rfl
@[simp] theorem latchDec_txStream (s : State) : s.latchDec.txStream = s.txStream := rfl
@[simp] theorem latchDec_rxStream (s : State) : s.latchDec.rxStream = s.rxStream := rfl
@[simp] theorem latchDec_readData (s : State) : s.latchDec.readData = s.readData := rfl
@[simp] theorem latchDec_pending (s : State) : s.latchDec.pending = s.pending := rfl
@[simp] theorem latchDec_resetLine (s : State) : s.latchDec.resetLine = s.resetLine := rfl

/-! ### FR_START -/

@[simp] theorem startAttempt_herr (s : State) : s.startAttempt.herr = s.herr := rfl
@[simp] theorem startAttempt_csAcc (s : State) : s.startAttempt.csAcc = s.csAcc := rfl
@[simp] theorem startAttempt_csRcvd (s : State) : s.startAttempt.csRcvd = s.csRcvd := rfl
@[simp] theorem startAttempt_txAddr (s : State) : s.startAttempt.txAddr = s.txAddr := rfl
@[simp] theorem startAttempt_txp (s : State) : s.startAttempt.txp = s.txp := rfl
@[simp] theorem startAttempt_txNonascii (s : State) : s.startAttempt.txNonascii = s.txNonascii := rfl
@[simp] theorem startAttempt_txOvf (s : State) : s.startAttempt.txOvf = s.txOvf := rfl
@[simp] theorem startAttempt_txq (s : State) : s.startAttempt.txq = s.txq := rfl
@[simp] theorem startAttempt_rxbuf (s : State) : s.startAttempt.rxbuf = [] := rfl
@[simp] theorem startAttempt_expectData (s : State) : s.startAttempt.expectData = s.expectData := rfl
@[simp] theorem startAttempt_frTimeout (s : State) : s.startAttempt.frTimeout = s.frTimeout := rfl
@[simp] theorem startAttempt_frRemain (s : State) : s.startAttempt.frRemain = s.frTimeout := rfl
@[simp] theorem startAttempt_frState (s : State) : s.startAttempt.frState = (if s.frTimeout = 0 then .done else .accum) := rfl
@[simp] theorem startAttempt_frComplete (s : State) : s.startAttempt.frComplete = false := rfl
@[simp] theorem startAttempt_frTimedout (s : State) : s.startAttempt.frTimedout = decide (s.frTimeout = 0) := rfl
@[simp] theorem startAttempt_frOvf (s : State) : s.startAttempt.frOvf = false := rfl
@[simp] theorem startAttempt_frStray (s : State) : s.startAttempt.frStray = false := rfl
@[simp] theorem startAttempt_dec (s : State) : s.startAttempt.dec = decodeRx [] := rfl
@[simp] theorem startAttempt_txStream (s : State) : s.startAttempt.txStream = s.txStream := rfl
@[simp] theorem startAttempt_rxStream (s : State) : s.startAttempt.rxStream = s.rxStream := rfl
@[simp] theorem startAttempt_readData (s : State) : s.startAttempt.readData = s.readData := rfl
@[simp] theorem startAttempt_pending (s : State) : s.startAttempt.pending = s.pending := rfl
@[simp] theorem startAttempt_resetLine (s : State) : s.startAttempt.resetLine = s.resetLine := rfl

/-! ### BLK_RESET -/

@[simp] theorem blockReset_herr (s : State) : s.blockReset.herr = State.reset.herr := rfl
@[simp] theorem blockReset_csAcc (s : State) : s.blockReset.csAcc = State.reset.csAcc := rfl
@[simp] theorem blockReset_csRcvd (s : State) : s.blockReset.csRcvd = State.reset.csRcvd := rfl
@[simp] theorem blockReset_txAddr (s : State) : s.blockReset.txAddr = State.reset.txAddr := rfl
@[simp] theorem blockReset_txp (s : State) : s.blockReset.txp = State.reset.txp := rfl
@[simp] theorem blockReset_txNonascii (s : State) : s.blockReset.txNonascii = State.reset.txNonascii := rfl
@[simp] theorem blockReset_txOvf (s : State) : s.blockReset.txOvf = State.reset.txOvf := rfl
@[simp] theorem blockReset_txq (s : State) : s.blockReset.txq = State.reset.txq := rfl
@[simp] theorem blockReset_rxbuf (s : State) : s.blockReset.rxbuf = State.reset.rxbuf := rfl
@[simp] theorem blockReset_expectData (s : State) : s.blockReset.expectData = State.reset.expectData := rfl
@[simp] theorem blockReset_frTimeout (s : State) : s.blockReset.frTimeout = State.reset.frTimeout := rfl
@[simp] theorem blockReset_frRemain (s : State) : s.blockReset.frRemain = State.reset.frRemain := rfl
@[simp] theorem blockReset_frState (s : State) : s.blockReset.frState = State.reset.frState := rfl
@[simp] theorem blockReset_frComplete (s : State) : s.blockReset.frComplete = State.reset.frComplete := rfl
@[simp] theorem blockReset_frTimedout (s : State) : s.blockReset.frTimedout = State.reset.frTimedout := rfl
@[simp] theorem blockReset_frOvf (s : State) : s.blockReset.frOvf = State.reset.frOvf := rfl
@[simp] theorem blockReset_frStray (s : State) : s.blockReset.frStray = State.reset.frStray := rfl
@[simp] theorem blockReset_dec (s : State) : s.blockReset.dec = State.reset.dec := rfl
@[simp] theorem blockReset_txStream (s : State) : s.blockReset.txStream = s.txStream := rfl
@[simp] theorem blockReset_rxStream (s : State) : s.blockReset.rxStream = s.rxStream := rfl
@[simp] theorem blockReset_readData (s : State) : s.blockReset.readData = s.readData := rfl
@[simp] theorem blockReset_pending (s : State) : s.blockReset.pending = s.pending := rfl
@[simp] theorem blockReset_resetLine (s : State) : s.blockReset.resetLine = s.resetLine := rfl

/-! ### Presenting an input -/

@[simp] theorem present_herr (s : State) (x : Input) : (s.present x).herr = s.herr := rfl
@[simp] theorem present_csAcc (s : State) (x : Input) : (s.present x).csAcc = s.csAcc := rfl
@[simp] theorem present_csRcvd (s : State) (x : Input) : (s.present x).csRcvd = s.csRcvd := rfl
@[simp] theorem present_txAddr (s : State) (x : Input) : (s.present x).txAddr = s.txAddr := rfl
@[simp] theorem present_txp (s : State) (x : Input) : (s.present x).txp = s.txp := rfl
@[simp] theorem present_txNonascii (s : State) (x : Input) : (s.present x).txNonascii = s.txNonascii := rfl
@[simp] theorem present_txOvf (s : State) (x : Input) : (s.present x).txOvf = s.txOvf := rfl
@[simp] theorem present_txq (s : State) (x : Input) : (s.present x).txq = s.txq := rfl
@[simp] theorem present_rxbuf (s : State) (x : Input) : (s.present x).rxbuf = s.rxbuf := rfl
@[simp] theorem present_expectData (s : State) (x : Input) : (s.present x).expectData = s.expectData := rfl
@[simp] theorem present_frTimeout (s : State) (x : Input) : (s.present x).frTimeout = s.frTimeout := rfl
@[simp] theorem present_frRemain (s : State) (x : Input) : (s.present x).frRemain = s.frRemain := rfl
@[simp] theorem present_frState (s : State) (x : Input) : (s.present x).frState = s.frState := rfl
@[simp] theorem present_frComplete (s : State) (x : Input) : (s.present x).frComplete = s.frComplete := rfl
@[simp] theorem present_frTimedout (s : State) (x : Input) : (s.present x).frTimedout = s.frTimedout := rfl
@[simp] theorem present_frOvf (s : State) (x : Input) : (s.present x).frOvf = s.frOvf := rfl
@[simp] theorem present_frStray (s : State) (x : Input) : (s.present x).frStray = s.frStray := rfl
@[simp] theorem present_dec (s : State) (x : Input) : (s.present x).dec = s.dec := rfl
@[simp] theorem present_txStream (s : State) (x : Input) : (s.present x).txStream = s.txStream := rfl
@[simp] theorem present_rxStream (s : State) (x : Input) : (s.present x).rxStream = s.rxStream := rfl
@[simp] theorem present_readData (s : State) (x : Input) : (s.present x).readData = s.readData := rfl
@[simp] theorem present_pending (s : State) (x : Input) : (s.present x).pending = s.pending ++ [x] := rfl
@[simp] theorem present_resetLine (s : State) (x : Input) : (s.present x).resetLine = s.resetLine := rfl

end Sys2Proof.Machine
end

