-- ==== Sys2Proof/Laws/Ops.lean ====
section
/-! SUPPORT. One lemma per shared operation saying once everything it can do, and the laws of the byte buffers. -/

namespace Sys2Proof.Machine

/-! ### Refusing -/

theorem refuseIf_cases (s : State) (c : Bool) (e : HostErr) :
    (c = true ∧ s.refuseIf c e = s.refuse e) ∨ (c = false ∧ s.refuseIf c e = s) := by
  cases c <;> simp [State.refuseIf]

/-- A refusal changes no other state than HERR. -/
theorem refuseIf_frame (s : State) (c : Bool) (e : HostErr) :
    s.refuseIf c e = { s with herr := s.herr ||| (if c then herrMask e else 0) } := by
  cases c <;> simp [State.refuseIf, State.refuse]

theorem gated_cases (s : State) (g : Gated) (f : State → State) :
    (admitted g s.frState = true ∧ s.gated g f = f s) ∨
    (admitted g s.frState = false ∧ s.gated g f = s.refuse .badstate) := by
  unfold State.gated
  cases admitted g s.frState <;> simp

/-- Nothing that is gated is admitted while accumulating. -/
@[simp] theorem admitted_accum (g : Gated) : admitted g .accum = false := by cases g <;> rfl

/-- Whatever the state, a gated operation is admitted while idle. -/
@[simp] theorem admitted_idle (g : Gated) : admitted g .idle = true := by cases g <;> rfl

/-! ### The byte buffers -/

@[simp] theorem read_nil (k : Nat) : Memory.read [] k = 0 := rfl

/-- The appended byte is read back at the old length. -/
@[simp] theorem read_append_last (buf : List Byte) (b : Byte) :
    Memory.read (Memory.append buf b) buf.length = b := by
  simp [Memory.read, Memory.append]

/-- An append leaves every other byte alone. -/
theorem read_append_other (buf : List Byte) (b : Byte) (k : Nat) (h : k ≠ buf.length) :
    Memory.read (Memory.append buf b) k = Memory.read buf k := by
  simp only [Memory.read, Memory.append, List.getD_eq_getElem?_getD, List.getElem?_append]
  by_cases hk : k < buf.length
  · simp [hk]
  · have h1 : buf.length ≤ k := Nat.le_of_not_lt hk
    have h2 : k - buf.length = (k - buf.length - 1) + 1 := by omega
    rw [h2]; simp [hk]

/-- At and beyond the valid length a buffer reads 0. -/
theorem read_beyond (buf : List Byte) (k : Nat) (h : buf.length ≤ k) : Memory.read buf k = 0 := by
  simp [Memory.read, h]

/-- Below the valid length a buffer reads its byte. -/
theorem read_below (buf : List Byte) (k : Nat) (h : k < buf.length) : Memory.read buf k = buf[k] := by
  simp [Memory.read, h]

@[simp] theorem append_length (buf : List Byte) (b : Byte) : (Memory.append buf b).length = buf.length + 1 := by
  simp [Memory.append]

theorem append_ne_nil (buf : List Byte) (b : Byte) : Memory.append buf b ≠ [] := by simp [Memory.append]

theorem wf_iff (s : State) :
    Memory.wf s = true ↔ s.txp.length ≤ Config.txCap ∧ s.rxbuf.length ≤ Config.rxCap := by
  simp [Memory.wf]

theorem reset_wf : Memory.wf State.reset = true := by decide

theorem pushTx_wf (s : State) (b : Byte) (h : Memory.wf s = true) : Memory.wf (s.pushTx b) = true := by
  rw [wf_iff] at *
  refine ⟨?_, h.2⟩
  rw [pushTx_txp]
  split
  · simp; omega
  · exact h.1

/-! ### Read results -/

/-- Bit `i` of a placed field: the field's bit `i - lo` from `lo` up, 0 elsewhere. -/
@[simp] theorem place_getLsbD (lo : Nat) {w : Nat} (f : BitVec w) (i : Nat) :
    (place lo f).getLsbD i = (decide (i < 32) && decide (lo ≤ i) && f.getLsbD (i - lo)) := by
  by_cases h : i < 32 <;> by_cases h' : lo ≤ i <;> simp [place, h, h']

@[simp] theorem place_getElem (lo : Nat) {w : Nat} (f : BitVec w) (i : Nat) (h : i < 32) :
    (place lo f)[i] = (decide (lo ≤ i) && f.getLsbD (i - lo)) := by
  rw [← BitVec.getLsbD_eq_getElem, place_getLsbD]; simp [h]

/-! ### The serializer -/

theorem encodeTx_cases (s : State) :
    (txBad s = false ∧ s.txq = [] ∧ s.encodeTx = { s with txq := encodeFrame s.txAddr s.txp }) ∨
    ((txBad s = true ∨ s.txq ≠ []) ∧
      s.encodeTx = { s with herr := s.herr ||| (if txBad s then herrMask .txbad else 0)
                                         ||| (if txBusy s then herrMask .txbusy else 0) }) := by
  unfold State.encodeTx
  cases hb : txBad s <;> cases hq : s.txq <;> simp [txBusy, hq, refuseIf_frame]

theorem popTx_cases (s : State) :
    (s.txq = [] ∧ s.popTx = s) ∨
    (∃ b q, s.txq = b :: q ∧ s.popTx = { s with txq := q, txStream := s.txStream ++ [b] }) := by
  unfold State.popTx
  cases h : s.txq with
  | nil => simp
  | cons b q => exact Or.inr ⟨b, q, rfl, rfl⟩

/-- A frame is never empty. -/
theorem encodeFrame_ne_nil (a : BitVec 7) (p : List Byte) : encodeFrame a p ≠ [] := by
  simp [encodeFrame, requestRegion]

@[simp] theorem encodeFrame_length (a : BitVec 7) (p : List Byte) : (encodeFrame a p).length = p.length + 3 := by
  simp [encodeFrame, requestRegion]

/-! ### The receive buffer and the framer -/

theorem pushRx_cases (s : State) (b : Byte) :
    (s.rxbuf.length < Config.rxCap ∧ s.pushRx b = { s with rxbuf := Memory.append s.rxbuf b }) ∨
    (Config.rxCap ≤ s.rxbuf.length ∧ s.pushRx b = { s with frOvf := true }) := by
  unfold State.pushRx
  split
  · exact Or.inl ⟨‹_›, rfl⟩
  · exact Or.inr ⟨by omega, rfl⟩

theorem storeRx_cases (s : State) (b : Byte) :
    (complete (decodeRx (Memory.append s.rxbuf b)) s.expectData = true ∧
      s.storeRx b = { s with
        rxbuf := Memory.append s.rxbuf b
        dec := decodeRx (Memory.append s.rxbuf b)
        frState := .done
        frComplete := true }) ∨
    (complete (decodeRx (Memory.append s.rxbuf b)) s.expectData = false ∧
      s.storeRx b = { s with
        rxbuf := Memory.append s.rxbuf b
        dec := decodeRx (Memory.append s.rxbuf b) }) := by
  unfold State.storeRx
  cases h : complete (decodeRx (Memory.append s.rxbuf b)) s.expectData <;> simp [h]

theorem acceptRx_cases (s : State) (b : Byte) :
    (s.frState = .accum ∧ s.rxbuf.length < Config.rxCap ∧ s.acceptRx b = s.storeRx b) ∨
    (s.frState = .accum ∧ Config.rxCap ≤ s.rxbuf.length ∧ s.acceptRx b = { s with frOvf := true }) ∨
    (s.frState ≠ .accum ∧ s.acceptRx b = { s with frStray := true }) := by
  unfold State.acceptRx
  cases h : s.frState with
  | accum => by_cases hl : s.rxbuf.length < Config.rxCap <;> simp [hl]; omega
  | idle => simp
  | done => simp

theorem receive_eq (s : State) (b : Byte) :
    s.receive b = { s.acceptRx b with rxStream := s.rxStream ++ [b] } := rfl

theorem tickDown_cases (s : State) :
    (s.frState ≠ .accum ∧ s.tickDown = s) ∨
    (s.frState = .accum ∧ s.frRemain = 1 ∧
      s.tickDown = { s with frRemain := 0, frState := .done, frTimedout := true }) ∨
    (s.frState = .accum ∧ s.frRemain ≠ 1 ∧ s.tickDown = { s with frRemain := s.frRemain - 1 }) := by
  unfold State.tickDown
  cases h : s.frState with
  | accum => by_cases hr : s.frRemain = 1#32 <;> simp [hr]
  | idle => simp
  | done => simp

theorem pushRx_wf (s : State) (b : Byte) (h : Memory.wf s = true) : Memory.wf (s.pushRx b) = true := by
  rw [wf_iff] at *
  obtain ⟨hl, e⟩ | ⟨-, e⟩ := pushRx_cases s b <;> rw [e]
  · exact ⟨h.1, by simp; omega⟩
  · exact h

theorem acceptRx_wf (s : State) (b : Byte) (h : Memory.wf s = true) : Memory.wf (s.acceptRx b) = true := by
  rw [wf_iff] at *
  obtain ⟨-, hl, e⟩ | ⟨-, -, e⟩ | ⟨-, e⟩ := acceptRx_cases s b <;> rw [e]
  · obtain ⟨-, e'⟩ | ⟨-, e'⟩ := storeRx_cases s b <;> rw [e'] <;> exact ⟨h.1, by simp; omega⟩
  · exact h
  · exact h

theorem emptyRx_wf (s : State) (h : Memory.wf s = true) : Memory.wf s.emptyRx = true := by
  rw [wf_iff] at *
  exact ⟨h.1, Nat.zero_le _⟩

/-! ### Decoding a response -/

/-- The empty buffer decodes to the record of reset (10_state.md R51). -/
@[simp] theorem decodeFrame_nil (map : Byte → Byte) : decodeFrame map [] = Dec.ofEmpty := rfl

@[simp] theorem decodeRx_nil : decodeRx [] = Dec.ofEmpty := rfl

/-- Everything `Decode` can do with at least five bytes before the data section. -/
theorem decodeFrame_cases (map : Byte → Byte) (s : List Byte) :
    (s.length < 5 ∧ decodeFrame map s = Dec.ofEmpty) ∨
    (5 ≤ s.length ∧ map (Memory.read s 2) = 0 ∧
      decodeFrame map s = { echoFields map s with verdict := .errStatus }) ∨
    (5 ≤ s.length ∧ map (Memory.read s 2) ≠ 0 ∧
      trailerMatches (csum (Memory.slice s 0 4)) (Memory.read s 4) = false ∧
      decodeFrame map s = { echoFields map s with verdict := .errCsum }) ∨
    (5 ≤ s.length ∧ map (Memory.read s 2) ≠ 0 ∧
      trailerMatches (csum (Memory.slice s 0 4)) (Memory.read s 4) = true ∧
      decodeFrame map s = decodeData s { echoFields map s with echoOk := true }) := by
  by_cases h5 : s.length < 5
  · exact Or.inl ⟨h5, by simp [decodeFrame, h5, Dec.ofEmpty]⟩
  · have h5' : 5 ≤ s.length := by omega
    by_cases hm : map (Memory.read s 2) = 0#8
    · exact Or.inr (Or.inl ⟨h5', hm, by simp [decodeFrame, h5, echoFields, hm]⟩)
    · cases ht : trailerMatches (csum (Memory.slice s 0 4)) (Memory.read s 4)
      · exact Or.inr (Or.inr (Or.inl ⟨h5', hm, rfl, by simp [decodeFrame, h5, echoFields, hm, ht, Dec.zero]⟩))
      · exact Or.inr (Or.inr (Or.inr ⟨h5', hm, rfl, by simp [decodeFrame, h5, echoFields, hm, ht]⟩))

/-- Everything the data section's decoding can do. -/
theorem decodeData_cases (s : List Byte) (r : Dec) (h : 5 ≤ s.length) :
    (s.length = 5 ∧ decodeData s r = { r with verdict := .okEcho, consumed := 5 }) ∨
    (s.length = 6 ∧ decodeData s r = { r with verdict := .errMalformed, reason := .dataHdrShort }) ∨
    (7 ≤ s.length ∧ terminator s = none ∧
      decodeData s r = { r with
        dAddr := Memory.read s 5, dCmd := Memory.read s 6
        verdict := .errMalformed, reason := .noTerminator }) ∨
    (∃ i, terminator s = some i ∧ s.length ≤ i + 1 ∧
      decodeData s r = { r with
        dAddr := Memory.read s 5, dCmd := Memory.read s 6
        dTerm := count8 i, dPlen := count8 (i - 7)
        verdict := .errMalformed, reason := .noTrailer }) ∨
    (∃ i, terminator s = some i ∧ i + 1 < s.length ∧
      decodeData s r = decodeTrailer s i { r with
        dAddr := Memory.read s 5, dCmd := Memory.read s 6
        dTerm := count8 i, dPlen := count8 (i - 7) }) := by
  unfold decodeData
  by_cases h5 : s.length = 5
  · exact Or.inl ⟨h5, by simp [h5]⟩
  · by_cases h6 : s.length = 6
    · exact Or.inr (Or.inl ⟨h6, by simp [h6]⟩)
    · cases ht : terminator s with
      | none => exact Or.inr (Or.inr (Or.inl ⟨by omega, rfl, by simp [h5, h6]⟩))
      | some i =>
        by_cases hi : s.length ≤ i + 1
        · exact Or.inr (Or.inr (Or.inr (Or.inl ⟨i, rfl, hi, by simp [h5, h6, hi]⟩)))
        · exact Or.inr (Or.inr (Or.inr (Or.inr ⟨i, rfl, by omega, by simp [h5, h6, hi]⟩)))

/-- Everything the data trailer's check can do. -/
theorem decodeTrailer_cases (s : List Byte) (i : Nat) (r : Dec) :
    (trailerMatches (csum (Memory.slice s 5 (i + 1))) (Memory.read s (i + 1)) = false ∧
      decodeTrailer s i r = { r with
        dComp := csum (Memory.slice s 5 (i + 1)), dRcvd := Memory.read s (i + 1)
        verdict := .errCsum, sect := true }) ∨
    (trailerMatches (csum (Memory.slice s 5 (i + 1))) (Memory.read s (i + 1)) = true ∧
      decodeTrailer s i r = { r with
        dComp := csum (Memory.slice s 5 (i + 1)), dRcvd := Memory.read s (i + 1)
        dataOk := true, verdict := .okEchoData
        consumed := count8 (i + 2), trailing := decide (s.length > i + 2) }) := by
  unfold decodeTrailer
  cases h : trailerMatches (csum (Memory.slice s 5 (i + 1))) (Memory.read s (i + 1)) <;> simp [h]

/-- The terminator is an index from 7 on that holds byte 5, and no earlier one does. -/
theorem terminator_some (s : List Byte) (i : Nat) (h : terminator s = some i) :
    7 ≤ i ∧ i < s.length ∧ Memory.read s i = Memory.read s 5 ∧
      ∀ k, 7 ≤ k → k < i → Memory.read s k ≠ Memory.read s 5 := by
  simp only [terminator, Option.map_eq_some_iff] at h
  obtain ⟨j, hj, rfl⟩ := h
  rw [List.findIdx?_eq_some_iff_getElem] at hj
  obtain ⟨hlt, hp, hmin⟩ := hj
  have hlen : j + 7 < s.length := by simpa [Nat.lt_sub_iff_add_lt] using hlt
  refine ⟨by omega, hlen, ?_, ?_⟩
  · rw [read_below _ _ hlen]
    simpa [Nat.add_comm] using hp
  · intro k hk7 hki
    have := hmin (k - 7) (by omega)
    rw [read_below _ _ (by omega)]
    simpa [show 7 + (k - 7) = k by omega] using this

/-- Where there is no terminator, no byte from index 7 on holds byte 5. -/
theorem terminator_none (s : List Byte) (h : terminator s = none) :
    ∀ k, 7 ≤ k → k < s.length → Memory.read s k ≠ Memory.read s 5 := by
  intro k hk hl
  simp only [terminator, Option.map_eq_none_iff, List.findIdx?_eq_none_iff] at h
  have hm : s[k] ∈ s.drop 7 := by
    rw [List.mem_drop_iff_getElem]
    exact ⟨k - 7, by omega, by simp [show 7 + (k - 7) = k by omega]⟩
  have := h _ hm
  rw [read_below _ _ hl]
  simpa using this

/-! ### Taking an input -/

theorem fetch_cases (s : State) :
    (s.pending = [] ∧ fetch s = .idle) ∨
    (∃ rest, s.pending = .reset true :: rest ∧
      fetch s = .handled { State.reset with pending := rest, resetLine := true }) ∨
    (∃ rest, s.pending = .reset false :: rest ∧
      fetch s = .handled { s with pending := rest, resetLine := false }) ∨
    (∃ o rest, s.pending = .op o :: rest ∧ s.resetLine = true ∧ fetch s = .handled { s with pending := rest }) ∨
    (∃ o rest i, s.pending = .op o :: rest ∧ s.resetLine = false ∧ decode o = .ok i ∧
      fetch s = .run i { s with pending := rest }) ∨
    (∃ o rest r, s.pending = .op o :: rest ∧ s.resetLine = false ∧ decode o = .error r ∧
      fetch s = .handled ({ s with pending := rest }.rejectOp o r)) := by
  unfold fetch
  cases h : s.pending with
  | nil => simp
  | cons x rest =>
    cases x with
    | reset b => cases b <;> simp [State.hardReset]
    | op o =>
      cases hr : s.resetLine with
      | true => simp
      | false => cases hd : decode o <;> simp [State.accept, hd]

/-- A rejection changes nothing but HERR and, for a read, the word returned. -/
theorem rejectOp_cases (s : State) (o : RawOp) (r : Reject) :
    ((∃ off, o = .hostRead off) ∧
      s.rejectOp o r = { s with herr := s.herr ||| herrMask (rejectFlag r), readData := some 0 }) ∨
    ((∀ off, o ≠ .hostRead off) ∧ s.rejectOp o r = { s with herr := s.herr ||| herrMask (rejectFlag r) }) := by
  cases o <;> simp [State.rejectOp, State.refuse, State.reply]

end Sys2Proof.Machine
end

