-- ==== Sys2Proof/Laws/PerInstr.lean ====
section
/-! SUPPORT. One lemma per instruction: its encoding lies in its row of spec/opcode_table.json, in the row's format and
with the row's bits. -/

namespace Sys2Proof.Laws

open Sys2Proof.Machine

/-- The encoding of a well-formed instruction lies in the table's row of the instruction. -/
def RowHolds.Statement (i : Instr) : Prop := i.wellFormed = true → i.row.holds (encode i) = true

/-- The bits of a window entry's offset under the row's mask, for every index. -/
theorem window_masked : ∀ k : Fin 256, (0x400 + 4 * k.val) &&& 0xC03 = 0x400 ∧ (0x800 + 4 * k.val) &&& 0xC03 = 0x800 := by
  decide +kernel

/-- The offset of a window entry is its base plus four times its index. -/
theorem windowOffset_toNat (base k : Nat) (hb : base ≤ 0x800) (hk : k < 256) :
    (windowOffset base k).toNat = base + 4 * k := by
  rw [windowOffset, BitVec.toNat_ofNat, Nat.mod_eq_of_lt (by omega)]

theorem RowHolds.nop : RowHolds.Statement .nop := fun _ => rfl

theorem RowHolds.csClr : RowHolds.Statement .csClr := fun _ => rfl

theorem RowHolds.txClr : RowHolds.Statement .txClr := fun _ => rfl

theorem RowHolds.txEncode : RowHolds.Statement .txEncode := fun _ => rfl

theorem RowHolds.rxClr : RowHolds.Statement .rxClr := fun _ => rfl

theorem RowHolds.rxDecode : RowHolds.Statement .rxDecode := fun _ => rfl

theorem RowHolds.frStart : RowHolds.Statement .frStart := fun _ => rfl

theorem RowHolds.blkReset : RowHolds.Statement .blkReset := fun _ => rfl

theorem RowHolds.herrW1c (m : BitVec 5) : RowHolds.Statement (.herrW1c m) := by
  simp [RowHolds.Statement, Row.holds, Instr.row, encode]

theorem RowHolds.csAdd (b : Byte) : RowHolds.Statement (.csAdd b) := by
  simp [RowHolds.Statement, Row.holds, Instr.row, encode]

theorem RowHolds.csSetchk (r : Byte) : RowHolds.Statement (.csSetchk r) := by
  simp [RowHolds.Statement, Row.holds, Instr.row, encode]

theorem RowHolds.txSetaddr (a : BitVec 7) : RowHolds.Statement (.txSetaddr a) := by
  simp [RowHolds.Statement, Row.holds, Instr.row, encode]

theorem RowHolds.txPush (b : Byte) : RowHolds.Statement (.txPush b) := by
  simp [RowHolds.Statement, Row.holds, Instr.row, encode]

theorem RowHolds.rxPush (b : Byte) : RowHolds.Statement (.rxPush b) := by
  simp [RowHolds.Statement, Row.holds, Instr.row, encode]

theorem RowHolds.frSetctrl (e : Bool) : RowHolds.Statement (.frSetctrl e) := by
  simp [RowHolds.Statement, Row.holds, Instr.row, encode]

theorem RowHolds.frSettmo (t : Word) : RowHolds.Statement (.frSettmo t) := by
  simp [RowHolds.Statement, Row.holds, Instr.row, encode]

theorem RowHolds.rdCap : RowHolds.Statement .rdCap := fun _ => rfl

theorem RowHolds.rdCmd : RowHolds.Statement .rdCmd := fun _ => rfl

theorem RowHolds.rdHerr : RowHolds.Statement .rdHerr := fun _ => rfl

theorem RowHolds.rdCsData : RowHolds.Statement .rdCsData := fun _ => rfl

theorem RowHolds.rdCsSum : RowHolds.Statement .rdCsSum := fun _ => rfl

theorem RowHolds.rdCsCheck : RowHolds.Statement .rdCsCheck := fun _ => rfl

theorem RowHolds.rdTxAddr : RowHolds.Statement .rdTxAddr := fun _ => rfl

theorem RowHolds.rdTxPush : RowHolds.Statement .rdTxPush := fun _ => rfl

theorem RowHolds.rdTxStat : RowHolds.Statement .rdTxStat := fun _ => rfl

theorem RowHolds.rdRxPush : RowHolds.Statement .rdRxPush := fun _ => rfl

theorem RowHolds.rdFrCtrl : RowHolds.Statement .rdFrCtrl := fun _ => rfl

theorem RowHolds.rdFrTimeout : RowHolds.Statement .rdFrTimeout := fun _ => rfl

theorem RowHolds.rdFrRemain : RowHolds.Statement .rdFrRemain := fun _ => rfl

theorem RowHolds.rdFrStat : RowHolds.Statement .rdFrStat := fun _ => rfl

theorem RowHolds.rdDecStat : RowHolds.Statement .rdDecStat := fun _ => rfl

theorem RowHolds.rdDecEcho : RowHolds.Statement .rdDecEcho := fun _ => rfl

theorem RowHolds.rdDecEcho2 : RowHolds.Statement .rdDecEcho2 := fun _ => rfl

theorem RowHolds.rdDecData : RowHolds.Statement .rdDecData := fun _ => rfl

theorem RowHolds.rdDecData2 : RowHolds.Statement .rdDecData2 := fun _ => rfl

theorem RowHolds.rdRxb (k : Nat) : RowHolds.Statement (.rdRxb k) := by
  intro h
  have hk : k < 256 := by simpa [Instr.wellFormed, windowIndexOk] using h
  simp [Instr.row, Row.holds, encode, windowOffset_toNat 0x400 k (by decide) hk, (window_masked ⟨k, hk⟩).1]

theorem RowHolds.rdTxp (k : Nat) : RowHolds.Statement (.rdTxp k) := by
  intro h
  have hk : k < 256 := by simpa [Instr.wellFormed, windowIndexOk] using h
  simp [Instr.row, Row.holds, encode, windowOffset_toNat 0x800 k (by decide) hk, (window_masked ⟨k, hk⟩).2]

theorem RowHolds.rxByte (b : Byte) : RowHolds.Statement (.rxByte b) := by
  simp [RowHolds.Statement, Row.holds, Instr.row, encode]

theorem RowHolds.tick : RowHolds.Statement .tick := fun _ => rfl

theorem RowHolds.txPop : RowHolds.Statement .txPop := fun _ => rfl

theorem RowHolds.addrByte (a : BitVec 7) : RowHolds.Statement (.addrByte a) := by
  intro _; revert a; decide

theorem RowHolds.csumByte (c : BitVec 7) : RowHolds.Statement (.csumByte c) := by
  intro _; revert c; decide

theorem RowHolds.payloadByte (p : BitVec 7) : RowHolds.Statement (.payloadByte p) := by
  intro _; revert p; decide

end Sys2Proof.Laws
end

