-- ==== Sys2Proof/Tests/Slice0.lean ====
section
/-! SUPPORT. The model's own tests: ill-formed terms, words written out from the encoding tables, the vectors of
95_test_vectors.md, one-step checks, and one witness for the hypotheses of each statement that has any. -/

namespace Sys2Proof.Tests

open Sys2Proof Sys2Proof.Machine

/-! ### WellFormed -/

/-- 10_state.md R47: the window has indices 0..255. -/
theorem test_wellFormed_rxb_256_refused : (Instr.rdRxb 256).wellFormed = false := by decide
/-- 10_state.md R48: the window has indices 0..255. -/
theorem test_wellFormed_txp_256_refused : (Instr.rdTxp 256).wellFormed = false := by decide
/-- The last index of each window is admitted. -/
theorem test_wellFormed_window_255 : (Instr.rdRxb 255).wellFormed = true ∧ (Instr.rdTxp 255).wellFormed = true := by decide

/-! ### Decoding, words written out from 30_encoding.md R108, R110, R120 and 20_memory.md R80 -/

/-- The eight command codes of 30_encoding.md R120, with the ignored bits of `v` set (R108). -/
theorem test_decode_commands :
    decode (.hostWrite 0b000000000100 0xFFFFFF00) = .ok .nop ∧
    decode (.hostWrite 0b000000000100 0xABCDEF01) = .ok .csClr ∧
    decode (.hostWrite 0b000000000100 0x00000010) = .ok .txClr ∧
    decode (.hostWrite 0b000000000100 0x00000111) = .ok .txEncode ∧
    decode (.hostWrite 0b000000000100 0x80000020) = .ok .rxClr ∧
    decode (.hostWrite 0b000000000100 0x00000021) = .ok .rxDecode ∧
    decode (.hostWrite 0b000000000100 0x00010022) = .ok .frStart ∧
    decode (.hostWrite 0b000000000100 0x000001F0) = .ok .blkReset := by decide

/-- The eight register writes, each operand with bits set above its field (30_encoding.md R108). -/
theorem test_decode_register_writes :
    decode (.hostWrite 0b000000001000 0xFFFFFFEA) = .ok (.herrW1c 0b01010) ∧
    decode (.hostWrite 0b000000010000 0xFFFFFF85) = .ok (.csAdd 0x85) ∧
    decode (.hostWrite 0b000000011000 0x000001E0) = .ok (.csSetchk 0xE0) ∧
    decode (.hostWrite 0b000000100000 0x00000085) = .ok (.txSetaddr 0x05) ∧
    decode (.hostWrite 0b000000100100 0x00000156) = .ok (.txPush 0x56) ∧
    decode (.hostWrite 0b000000110000 0xFFFFFF85) = .ok (.rxPush 0x85) ∧
    decode (.hostWrite 0b000000110100 0xFFFFFFFE) = .ok (.frSetctrl false) ∧
    decode (.hostWrite 0b000000110100 0x00000003) = .ok (.frSetctrl true) ∧
    decode (.hostWrite 0b000000111000 0xFFFFFFFF) = .ok (.frSettmo 0xFFFFFFFF) := by decide

/-- The reads of the registers up to FR_STAT (20_memory.md R80). -/
theorem test_decode_reads_low :
    decode (.hostRead 0b000000000000) = .ok .rdCap ∧ decode (.hostRead 0b000000000100) = .ok .rdCmd ∧
    decode (.hostRead 0b000000001000) = .ok .rdHerr ∧ decode (.hostRead 0b000000010000) = .ok .rdCsData ∧
    decode (.hostRead 0b000000010100) = .ok .rdCsSum ∧ decode (.hostRead 0b000000011000) = .ok .rdCsCheck ∧
    decode (.hostRead 0b000000100000) = .ok .rdTxAddr ∧ decode (.hostRead 0b000000100100) = .ok .rdTxPush ∧
    decode (.hostRead 0b000000101000) = .ok .rdTxStat ∧ decode (.hostRead 0b000000110000) = .ok .rdRxPush ∧
    decode (.hostRead 0b000000110100) = .ok .rdFrCtrl ∧ decode (.hostRead 0b000000111000) = .ok .rdFrTimeout ∧
    decode (.hostRead 0b000000111100) = .ok .rdFrRemain ∧ decode (.hostRead 0b000001000000) = .ok .rdFrStat := by decide

/-- The reads of the decode result and of the windows at both ends (20_memory.md R80; H11). -/
theorem test_decode_reads_high :
    decode (.hostRead 0b000001010000) = .ok .rdDecStat ∧ decode (.hostRead 0b000001010100) = .ok .rdDecEcho ∧
    decode (.hostRead 0b000001011000) = .ok .rdDecEcho2 ∧ decode (.hostRead 0b000001011100) = .ok .rdDecData ∧
    decode (.hostRead 0b000001100000) = .ok .rdDecData2 ∧
    decode (.hostRead 0b010000000000) = .ok (.rdRxb 0) ∧ decode (.hostRead 0b011111111100) = .ok (.rdRxb 255) ∧
    decode (.hostRead 0b100000000100) = .ok (.rdTxp 1) ∧ decode (.hostRead 0b101111111100) = .ok (.rdTxp 255) := by
  decide

/-- The port events and the byte classes (30_encoding.md R109, R100). -/
theorem test_decode_ports_and_wire :
    decode (.rxByte 0x41) = .ok (.rxByte 0x41) ∧ decode .tick = .ok .tick ∧ decode .txPop = .ok .txPop ∧
    decode (.wire .address 0b10000101) = .ok (.addrByte 0b0000101) ∧
    decode (.wire .trailer 0b01100000) = .ok (.csumByte 0b1100000) ∧
    decode (.wire .payload 0b01010110) = .ok (.payloadByte 0b1010110) ∧
    decode (.wire .trailer 0b11100000) = .ok (.rxByte 0xE0) := by decide

/-- Reserved command codes at the edges of each reserved range (30_encoding.md R121). -/
theorem test_decode_reserved_codes :
    [0x02, 0x10F, 0x12, 0xFFFFFF1F, 0x23, 0xEF, 0x1F1, 0xFF].map (fun v => decode (.hostWrite 0x004 v))
      = List.replicate 8 (.error .reservedCommand) := by decide

/-- The unmapped offsets of H5, read and written. -/
theorem test_decode_unmapped :
    [0x00C, 0x01C, 0x02C, 0x044, 0x048, 0x04C, 0x064, 0x3FC, 0xC00, 0xFFC].map
        (fun off => (decode (.hostRead off), decode (.hostWrite off 5)))
      = List.replicate 10 (.error .unmapped, .error .unmapped) := by decide

/-- The misaligned offsets of H6, H7 and P7, one of them also unmapped: misaligned is tested first (20_memory.md R81). -/
theorem test_decode_misaligned :
    [0x041, 0x042, 0x043, 0x021, 0x00E].map (fun off => (decode (.hostRead off), decode (.hostWrite off 5)))
      = List.replicate 5 (.error .misaligned, .error .misaligned) := by decide

/-- Writes to the read-only locations (20_memory.md R77; U12, D35, P7). -/
theorem test_decode_read_only :
    [0x000, 0x014, 0x028, 0x03C, 0x040, 0x050, 0x054, 0x058, 0x05C, 0x060, 0x400, 0x7FC, 0x800, 0xBFC].map
        (fun off => decode (.hostWrite off 0))
      = List.replicate 14 (.error .readOnly) := by decide

/-- The table's words: a code, an address byte, a checksum byte, an offset written, an offset read; refused where no
row holds. Which row a shared word gives is log 11. -/
theorem test_decodeTableWord :
    decodeTableWord 8 0x11 = some .txEncode ∧ decodeTableWord 8 0xF0 = some .blkReset ∧
    decodeTableWord 8 0x85 = some (.addrByte 5) ∧ decodeTableWord 8 0x5E = some (.csumByte 0x5E) ∧
    decodeTableWord 16 0x010 = some (.csAdd 0) ∧ decodeTableWord 16 0x004 = some .rdCmd ∧
    decodeTableWord 16 0x040 = some .rdFrStat ∧ decodeTableWord 16 0x404 = some (.rdRxb 1) ∧
    decodeTableWord 16 0xC00 = none ∧ decodeTableWord 16 0x1004 = none := by decide

/-! ### The functions of the block: vectors K, E and D of 95_test_vectors.md -/

/-- K1 to K9, K11, K12. -/
theorem test_csum_vectors :
    csum [] = 0x00 ∧ csum [0x00] = 0x00 ∧ csum [0x80] = 0x00 ∧ csum [0x7F, 0x01] = 0x00 ∧
    csum [0x7F, 0x7F, 0x7F] = 0x7D ∧ csum [0x85, 0x56, 0x85] = 0x60 ∧
    csum [0x85, 0x4D, 0x31, 0x30, 0x30, 0x85] = 0x68 ∧ csum [0x85, 0x56, 0x03, 0x00] = 0x5E ∧
    csum [0x85, 0x56, 0x31, 0x32, 0x33, 0x85] = 0x76 ∧ csum [0x05, 0x56, 0x03, 0x00] = 0x5E ∧
    csum [0x56, 0x85, 0x85] = 0x60 := by decide +kernel

/-- K10: 255 bytes of 0xFF. -/
theorem test_csum_longest : csum (List.replicate 255 0xFF) = 0x01 := by decide +kernel

/-- E1 to E7. -/
theorem test_encodeFrame_vectors :
    encodeFrame 5 [0x56] = [0x85, 0x56, 0x85, 0x60] ∧
    encodeFrame 5 [0x4D, 0x31, 0x30, 0x30] = [0x85, 0x4D, 0x31, 0x30, 0x30, 0x85, 0x68] ∧
    encodeFrame 0 [] = [0x80, 0x80, 0x00] ∧ encodeFrame 127 [] = [0xFF, 0xFF, 0x7E] ∧
    encodeFrame 127 [0x5A, 0x39] = [0xFF, 0x5A, 0x39, 0xFF, 0x11] ∧
    encodeFrame 64 [0x41, 0x30] = [0xC0, 0x41, 0x30, 0xC0, 0x71] ∧
    encodeFrame 1 [0x47, 0x32, 0x35, 0x30, 0x30, 0x30] = [0x81, 0x47, 0x32, 0x35, 0x30, 0x30, 0x30, 0x81, 0x40] := by
  decide +kernel

/-- TV_MAP, the spec's test fixture for STATUS_MAP (95_test_vectors.md section 0). -/
def tvMap (raw : Byte) : Byte := if 1 ≤ raw.toNat ∧ raw.toNat ≤ 14 then raw else 0

/-- The five result registers of a buffer under TV_MAP. -/
def resultWords (buf : List Byte) : List Word :=
  let r := decodeFrame tvMap buf
  [regDecStat r, regDecEcho r, regDecEcho2 r, regDecData r, regDecData2 r]

/-- D1 to D9: the echo section. -/
theorem test_decode_echo_vectors :
    resultWords [0x85, 0x56, 0x03, 0x00, 0x5E] = [0x00050200, 0x00035685, 0x00035E5E, 0, 0] ∧
    resultWords [0x05, 0x56, 0x03, 0x00, 0x5E] = [0x00050200, 0x00035605, 0x00035E5E, 0, 0] ∧
    resultWords [0x85, 0x56, 0x03, 0xA7, 0x05] = [0x00050200, 0xA7035685, 0x00030505, 0, 0] ∧
    resultWords [0x85, 0x56, 0x00, 0x00, 0x5B] = [0x00000003, 0x00005685, 0x00005B5B, 0, 0] ∧
    resultWords [0x85, 0x56, 0x0F, 0x00, 0x6A] = [0x00000003, 0x000F5685, 0x00006A6A, 0, 0] ∧
    resultWords [0x85, 0x56, 0x03, 0x00, 0x5F] = [0x00000004, 0x00035685, 0x00035F5E, 0, 0] ∧
    resultWords [0x85, 0x56, 0x03, 0x00, 0xDE] = [0x00000004, 0x00035685, 0x0003DE5E, 0, 0] ∧
    resultWords [0x85, 0x56, 0x63, 0x00, 0x00] = [0x00000003, 0x00635685, 0x0000003E, 0, 0] ∧
    resultWords [0x85, 0x56, 0x03, 0x00] = [0x00000012, 0, 0, 0, 0] := by decide +kernel

/-- The echo section the data vectors start with. -/
def echo : List Byte := [0x85, 0x56, 0x03, 0x00, 0x5E]

/-- D10 and its proper prefixes D11a, D11b (n = 7 and n = 10), D11c. -/
theorem test_decode_prefix_vectors :
    resultWords (echo ++ [0x85, 0x56, 0x31, 0x32, 0x33, 0x85, 0x76])
      = [0x000C0601, 0x00035685, 0x00035E5E, 0x0A035685, 0x00007676] ∧
    resultWords (echo ++ [0x85]) = [0x00000222, 0x00035685, 0x00035E5E, 0, 0] ∧
    resultWords (echo ++ [0x85, 0x56]) = [0x00000232, 0x00035685, 0x00035E5E, 0x00005685, 0] ∧
    resultWords (echo ++ [0x85, 0x56, 0x31, 0x32, 0x33]) = [0x00000232, 0x00035685, 0x00035E5E, 0x00005685, 0] ∧
    resultWords (echo ++ [0x85, 0x56, 0x31, 0x32, 0x33, 0x85])
      = [0x00000242, 0x00035685, 0x00035E5E, 0x0A035685, 0] := by decide +kernel

/-- D12 to D16. -/
theorem test_decode_data_vectors :
    resultWords (echo ++ [0x85, 0x56, 0x85, 0x60]) = [0x00090601, 0x00035685, 0x00035E5E, 0x07005685, 0x00006060] ∧
    resultWords (echo ++ [0x85, 0x56, 0x31, 0x32, 0x33, 0x85, 0x77])
      = [0x00000304, 0x00035685, 0x00035E5E, 0x0A035685, 0x00007776] ∧
    resultWords (echo ++ [0x85, 0x56, 0x31, 0x85, 0x33, 0x85, 0x49])
      = [0x00000304, 0x00035685, 0x00035E5E, 0x08015685, 0x00003311] ∧
    resultWords (echo ++ [0x85, 0x56, 0x31, 0x32, 0x33, 0x85, 0x76, 0x0D, 0x0A])
      = [0x000C0E01, 0x00035685, 0x00035E5E, 0x0A035685, 0x00007676] ∧
    resultWords (echo ++ [0x86, 0x56, 0x31, 0x86, 0x13])
      = [0x000A0601, 0x00035685, 0x00035E5E, 0x08015686, 0x00001313] := by decide +kernel

/-- D17 to D20: no marker, command byte equal to the address, a collision, a trailer with bit 7 set. -/
theorem test_decode_scan_vectors :
    resultWords [0x05, 0x56, 0x03, 0x00, 0x5E, 0x05, 0x56, 0x31, 0x05, 0x11]
      = [0x000A0601, 0x00035605, 0x00035E5E, 0x08015605, 0x00001111] ∧
    resultWords (echo ++ [0x85, 0x85, 0x31, 0x85, 0x40])
      = [0x000A0601, 0x00035685, 0x00035E5E, 0x08018585, 0x00004040] ∧
    resultWords (echo ++ [0x85, 0x56, 0x85, 0x60, 0x31, 0x85, 0x76])
      = [0x00090E01, 0x00035685, 0x00035E5E, 0x07005685, 0x00006060] ∧
    resultWords (echo ++ [0x85, 0x56, 0x31, 0x32, 0x33, 0x85, 0xF6])
      = [0x00000304, 0x00035685, 0x00035E5E, 0x0A035685, 0x0000F676] := by decide +kernel

/-- D21: the longest response, 246 payload bytes. -/
theorem test_decode_longest_response :
    resultWords (echo ++ [0x85, 0x56] ++ (List.range 246).map (fun k => BitVec.ofNat 8 (0x30 + k % 10)) ++ [0x85, 0x47])
      = [0x00FF0601, 0x00035685, 0x00035E5E, 0xFDF65685, 0x00004747] := by decide +kernel

/-! ### One step of each instruction -/

/-- The state an instruction leaves, for tests. -/
def after (i : Instr) (s : State) : State :=
  match exec i s with
  | .next t => t
  | .fault _ | .refused _ => s

/-- The state one step leaves, for tests. -/
def stepped (s : State) : State :=
  match step s with
  | .next t => t
  | .fault _ | .refused _ => s

/-- An attempt runs, with `n` ticks left and `buf` received. -/
def inAccum (n : BitVec 32) (buf : List Byte) : State :=
  { State.reset with frState := .accum, frTimeout := n, frRemain := n, rxbuf := buf }

/-- An attempt has timed out with nothing received. -/
def timedOut : State := { State.reset with frState := .done, frTimedout := true }

/-- "V" is the payload and 5 the address (E1). -/
def loadedV : State := { State.reset with txAddr := 5, txp := [0x56] }

/-- H3. -/
theorem test_nop : after .nop loadedV = loadedV := by decide
/-- U9. -/
theorem test_csClr : (after .csClr { State.reset with csAcc := 0x60, csRcvd := 0x60 }).csAcc = 0
    ∧ (after .csClr { State.reset with csAcc := 0x60, csRcvd := 0x60 }).csRcvd = 0 := by decide
/-- U7: 127 + 1 wraps. -/
theorem test_csAdd_wraps : (after (.csAdd 0x01) { State.reset with csAcc := 0x7F }).csAcc = 0 := by decide
/-- U8: bit 7 of the byte contributes nothing. -/
theorem test_csAdd_bit7 : (after (.csAdd 0x85) State.reset).csAcc = 5 := by decide
/-- U4: the written trailer is kept with its bit 7. -/
theorem test_csSetchk : (after (.csSetchk 0xE0) State.reset).csRcvd = 0xE0 := by decide
/-- U2. -/
theorem test_rdCsSum : (after .rdCsSum { State.reset with csAcc := 0x60 }).readData = some 0x60 := by decide
/-- U3: MATCH. -/
theorem test_rdCsCheck_match :
    (after .rdCsCheck { State.reset with csAcc := 0x60, csRcvd := 0x60 }).readData = some 0x160 := by decide
/-- U4: an 8-bit comparison. -/
theorem test_rdCsCheck_bit7 :
    (after .rdCsCheck { State.reset with csAcc := 0x60, csRcvd := 0xE0 }).readData = some 0x0E0 := by decide
/-- E22: a queued frame is not affected. -/
theorem test_txSetaddr : (after (.txSetaddr 9) { loadedV with txq := [0x56] }).txAddr = 9
    ∧ (after (.txSetaddr 9) { loadedV with txq := [0x56] }).txq = [0x56] := by decide
/-- E12, E13: a byte with bit 7 set is not stored, a later one is. -/
theorem test_txPush_nonascii : (after (.txPush 0x85) State.reset).txp = []
    ∧ (after (.txPush 0x56) (after (.txPush 0x85) State.reset)).txp = [0x56]
    ∧ (after (.txPush 0x56) (after (.txPush 0x85) State.reset)).txNonascii = true := by decide
/-- E16: both flags. -/
theorem test_txPush_both :
    (after (.txPush 0xC1) { State.reset with txp := List.replicate 252 0x41 }).txNonascii = true ∧
    (after (.txPush 0xC1) { State.reset with txp := List.replicate 252 0x41 }).txOvf = true := by decide +kernel
/-- E21: TX_CLR does not touch the queue. -/
theorem test_txClr : (after .txClr { loadedV with txq := [0x56, 0x85], txOvf := true }).txq = [0x56, 0x85]
    ∧ (after .txClr { loadedV with txq := [0x56, 0x85], txOvf := true }).txp = []
    ∧ (after .txClr { loadedV with txq := [0x56, 0x85], txOvf := true }).txOvf = false := by decide
/-- E1, E9: the frame is queued, the payload kept. -/
theorem test_txEncode : (after .txEncode loadedV).txq = [0x85, 0x56, 0x85, 0x60]
    ∧ (after .txEncode loadedV).txp = [0x56] := by decide
/-- P7 lines 14 and 15: refused while the queue is not empty. -/
theorem test_txEncode_busy : (after .txEncode (after .txEncode loadedV)).herr = 0x08
    ∧ (after .txEncode (after .txEncode loadedV)).txq = [0x85, 0x56, 0x85, 0x60] := by decide
/-- P1: the head byte leaves. -/
theorem test_txPop : (after .txPop (after .txEncode loadedV)).txStream = [0x85]
    ∧ (after .txPop (after .txEncode loadedV)).txq = [0x56, 0x85, 0x60] := by decide
/-- I25: no byte available, nothing changes. -/
theorem test_txPop_empty : after .txPop loadedV = loadedV := by decide
/-- P7 line 3. -/
theorem test_rdTxAddr : (after .rdTxAddr loadedV).readData = some 0x05 := by decide
/-- E10. -/
theorem test_rdTxStat : (after .rdTxStat (after .txEncode loadedV)).readData = some 0x00000401 := by decide
/-- E16: the two flags. -/
theorem test_rdTxStat_flags :
    (after .rdTxStat { loadedV with txNonascii := true, txOvf := true }).readData = some 0x00030001 := by decide
/-- E18: the window below and at the valid length. -/
theorem test_rdTxp : (after (.rdTxp 0) loadedV).readData = some 0x56
    ∧ (after (.rdTxp 1) loadedV).readData = some 0 := by decide
/-- D33. -/
theorem test_rxPush : (after (.rxPush 0x85) State.reset).rxbuf = [0x85] := by decide
/-- D32: refused in DONE. -/
theorem test_rxPush_done : after (.rxPush 0x01) timedOut = { timedOut with herr := 0x04 } := by decide
/-- D34. -/
theorem test_rxClr : (after .rxClr { timedOut with rxbuf := [0x85], frStray := true }).rxbuf = []
    ∧ (after .rxClr { timedOut with rxbuf := [0x85], frStray := true }).frState = .idle
    ∧ (after .rxClr { timedOut with rxbuf := [0x85], frStray := true }).frStray = false := by decide
/-- 43_framer.md R245: refused in ACCUM. -/
theorem test_rxClr_accum : after .rxClr (inAccum 5 [0x85]) = { inAccum 5 [0x85] with herr := 0x04 } := by decide
/-- D9. -/
theorem test_rxDecode : regDecStat (after .rxDecode { State.reset with rxbuf := [0x85], dec := Dec.zero }).dec
    = 0x00000012 := by decide
/-- 43_framer.md R245: refused in ACCUM. -/
theorem test_rxDecode_accum : (after .rxDecode (inAccum 5 [])).herr = 0x04 := by decide
/-- F1. -/
theorem test_frStart : (after .rdFrStat (after .frStart { State.reset with frTimeout := 100 })).readData = some 0x01
    ∧ (after .frStart { State.reset with frTimeout := 100 }).frRemain = 100 := by decide
/-- F3: a budget of 0. -/
theorem test_frStart_zero : (after .rdFrStat (after .frStart State.reset)).readData = some 0x0A := by decide
/-- F13. -/
theorem test_frSetctrl : (after (.frSetctrl true) State.reset).expectData = true := by decide
/-- F15's state: refused in ACCUM. -/
theorem test_frSettmo : (after (.frSettmo 7) State.reset).frTimeout = 7
    ∧ (after (.frSettmo 7) (inAccum 5 [])).frTimeout = 5 := by decide
/-- F16's first byte: stored and decoded in ACCUM. -/
theorem test_rxByte_accum : (after (.rxByte 0x85) (inAccum 5 [])).rxbuf = [0x85]
    ∧ regDecStat (after (.rxByte 0x85) (inAccum 5 [])).dec = 0x12
    ∧ (after (.rxByte 0x85) (inAccum 5 [])).frState = .accum := by decide
/-- F12: a stray byte. -/
theorem test_rxByte_idle : after (.rxByte 0x41) State.reset
    = { State.reset with frStray := true, rxStream := [0x41] } := by decide
/-- 30_encoding.md R101: the wire form of address 5 is 0x85. -/
theorem test_addrByte : (after (.addrByte 5) (inAccum 5 [])).rxbuf = [0x85] := by decide
/-- 30_encoding.md R100: bit 7 is 0. -/
theorem test_csumByte : (after (.csumByte 0x5E) (inAccum 5 [0x85])).rxbuf = [0x85, 0x5E] := by decide
/-- 30_encoding.md R100: bit 7 is 0. -/
theorem test_payloadByte : (after (.payloadByte 0x56) (inAccum 5 [0x85])).rxbuf = [0x85, 0x56] := by decide
/-- F2. -/
theorem test_tick : (after .tick (inAccum 2 [])).frRemain = 1 ∧ (after .tick (inAccum 2 [])).frState = .accum := by decide
/-- F2, F18: the last tick. -/
theorem test_tick_last : (after .rdFrStat (after .tick (inAccum 1 [0x85, 0x56, 0x03, 0x00]))).readData
    = some 0x0000040A := by decide
/-- F16. -/
theorem test_blkReset : after .blkReset { inAccum 5 [0x85] with herr := 0x1F, txq := [0x60] } = State.reset := by decide
/-- H8, H9. -/
theorem test_herrW1c : (after (.herrW1c 0x01) { State.reset with herr := 0x03 }).herr = 0x02
    ∧ (after (.herrW1c 0x1F) { State.reset with herr := 0x1F }).herr = 0 := by decide
/-- H1. -/
theorem test_rdCap : (after .rdCap State.reset).readData = some 0x0000FFFC := by decide
/-- P7 line 20. -/
theorem test_rdHerr : (after .rdHerr { State.reset with herr := 0x1B }).readData = some 0x1B := by decide
/-- H10: the write-only locations. -/
theorem test_rdWriteOnly : (after .rdCmd loadedV).readData = some 0 ∧ (after .rdCsData loadedV).readData = some 0
    ∧ (after .rdTxPush loadedV).readData = some 0 ∧ (after .rdRxPush loadedV).readData = some 0 := by decide
/-- F13, F1. -/
theorem test_rdFramer : (after .rdFrCtrl { inAccum 100 [] with expectData := true }).readData = some 1
    ∧ (after .rdFrTimeout (inAccum 0xFFFFFFFF [])).readData = some 0xFFFFFFFF
    ∧ (after .rdFrRemain (inAccum 100 [])).readData = some 0x64 := by decide
/-- D30. -/
theorem test_rdFrStat : (after .rdFrStat { State.reset with rxbuf := [0x85, 0x56, 0x03] }).readData = some 0x300 := by
  decide
/-- P7 lines 34, and R42 to R45 with every reset value 0. -/
theorem test_rdDec_reset : (after .rdDecStat State.reset).readData = some 0x12
    ∧ (after .rdDecEcho State.reset).readData = some 0 ∧ (after .rdDecEcho2 State.reset).readData = some 0
    ∧ (after .rdDecData State.reset).readData = some 0 ∧ (after .rdDecData2 State.reset).readData = some 0 := by decide
/-- D10's result registers. -/
theorem test_rdDec_d10 :
    let s := { State.reset with dec := decodeFrame tvMap (echo ++ [0x85, 0x56, 0x31, 0x32, 0x33, 0x85, 0x76]) }
    (after .rdDecStat s).readData = some 0x000C0601 ∧ (after .rdDecEcho s).readData = some 0x00035685
    ∧ (after .rdDecEcho2 s).readData = some 0x00035E5E ∧ (after .rdDecData s).readData = some 0x0A035685
    ∧ (after .rdDecData2 s).readData = some 0x00007676 := by decide
/-- F10: below and beyond the valid length. -/
theorem test_rdRxb : (after (.rdRxb 1) { State.reset with rxbuf := [0x85, 0x56] }).readData = some 0x56
    ∧ (after (.rdRxb 255) { State.reset with rxbuf := [0x85, 0x56] }).readData = some 0 := by decide

/-! ### One step of the machine -/

/-- H2: a reserved code. -/
theorem test_step_badcmd : stepped { State.reset with pending := [.op (.hostWrite 0x004 0x02)] }
    = { State.reset with herr := 0x01 } := by decide
/-- H6: a misaligned read returns 0 with BADACC. -/
theorem test_step_badacc_read : stepped { State.reset with pending := [.op (.hostRead 0x041)] }
    = { State.reset with herr := 0x02, readData := some 0 } := by decide
/-- U12: a write to a read-only register. -/
theorem test_step_badacc_write : stepped { State.reset with pending := [.op (.hostWrite 0x014 1)] }
    = { State.reset with herr := 0x02 } := by decide
/-- 70_reset_and_hazards.md R321: a byte presented in reset is lost without FR_STRAY. -/
theorem test_step_in_reset : stepped { State.reset with resetLine := true, pending := [.op (.rxByte 0x41)] }
    = { State.reset with resetLine := true } := by decide
/-- A table word presented right after reset is what the next step runs. -/
theorem test_withFetchWord : stepped (State.reset.withFetchWord 8 0x11) = after .txEncode State.reset
    ∧ stepped (State.reset.withFetchWord 16 0x028) = after .rdTxStat State.reset := by decide
/-- 20_memory.md R85: the order within one cycle. -/
theorem test_cycle_order :
    Cycle.ops { pop := true, rx := some 0x5E, tick := true, host := some (.read 0x040) }
      = [.txPop, .rxByte 0x5E, .tick, .hostRead 0x040] := by decide
/-- `SEND 5, "V"` expands as 30_encoding.md R131 says (P1). -/
theorem test_traceSend : traceSend 5 [0x56]
    = [.hostWrite 0x004 0x10, .hostWrite 0x020 0x05, .hostWrite 0x024 0x56, .hostWrite 0x004 0x11] := by decide

/-! ### Witnesses: for each statement with hypotheses, concrete values that meet them, each clause at its edges -/

/-- The receive buffer is full. -/
def fullBuffer : List Byte := List.replicate 255 0x11

theorem witness_DecodeOfEncodeIsTheInstruction :
    (Instr.rdRxb 0).wellFormed = true ∧ (Instr.rdTxp 255).wellFormed = true := by decide
theorem witness_DecodedIsWellFormed :
    decode (.hostRead 0xBFC) = .ok (.rdTxp 255) ∧ decode (.hostWrite 0x004 0x122) = .ok .frStart := by decide
/-- The edges of the unmapped ranges, and the mapped offsets beside them. -/
theorem witness_ReadsRejectedExactlyOffTheMap :
    (UnmappedOffset 0x00C ∧ UnmappedOffset 0x044 ∧ UnmappedOffset 0x04C ∧ UnmappedOffset 0x064 ∧
      UnmappedOffset 0x3FC ∧ UnmappedOffset 0xC00 ∧ UnmappedOffset 0xFFC) ∧
    (¬ UnmappedOffset 0x040 ∧ ¬ UnmappedOffset 0x050 ∧ ¬ UnmappedOffset 0x060 ∧ ¬ UnmappedOffset 0x400 ∧
      ¬ UnmappedOffset 0xBFC) ∧
    (0x00C#12).toNat % 4 = 0 ∧ (0x00D#12).toNat % 4 ≠ 0 := by
  simp [UnmappedOffset]
/-- No aligned offset is both unmapped and read-only; the edges of the read-only windows; a reserved code. -/
theorem witness_WritesRejectedExactlyWhereNotWritable :
    (ReadOnlyOffset 0x000 ∧ ReadOnlyOffset 0x060 ∧ ReadOnlyOffset 0x400 ∧ ReadOnlyOffset 0xBFC) ∧
    (¬ UnmappedOffset 0x000 ∧ ¬ UnmappedOffset 0x060 ∧ ¬ UnmappedOffset 0x400 ∧ ¬ UnmappedOffset 0xBFC) ∧
    (UnmappedOffset 0x3FC ∧ UnmappedOffset 0xC00 ∧ ¬ ReadOnlyOffset 0x3FC ∧ ¬ ReadOnlyOffset 0xC00) ∧
    (0x02#32).toNat % 256 ∉ [0x00, 0x01, 0x10, 0x11, 0x20, 0x21, 0x22, 0xF0] := by
  simp [ReadOnlyOffset, UnmappedOffset]
/-- Words whose low byte is each code, with bits set above it. -/
theorem witness_OperandsComeFromTheLowBits :
    (0xFFFFFF00#32).toNat % 256 = 0x00 ∧ (0xABCDEF01#32).toNat % 256 = 0x01 ∧ (0x110#32).toNat % 256 = 0x10 ∧
    (0x111#32).toNat % 256 = 0x11 ∧ (0x120#32).toNat % 256 = 0x20 ∧ (0x121#32).toNat % 256 = 0x21 ∧
    (0x122#32).toNat % 256 = 0x22 ∧ (0x1F0#32).toNat % 256 = 0xF0 := by decide
theorem witness_StepRunsTheDecodedInstruction :
    let s := { State.reset with pending := [.op (.hostWrite 0x004 0x11), .op .tick] }
    s.pending = .op (.hostWrite 0x004 0x11) :: [.op .tick] ∧ s.resetLine = false ∧
      decode (.hostWrite 0x004 0x11) = .ok .txEncode := by decide
theorem witness_StepConsumesTheOldestInput :
    State.reset.pending = [] ∧ { State.reset with pending := [.op .tick] }.pending = .op .tick :: [] := by decide
theorem witness_BadAccessesSetOnlyBadacc :
    { State.reset with pending := [.op (.hostWrite 0xBFC 5)] }.pending = .op (.hostWrite 0xBFC 5) :: [] ∧
    { State.reset with pending := [.op (.hostRead 0xC00)] }.pending = .op (.hostRead 0xC00) :: [] ∧
    State.reset.resetLine = false ∧ (0x043#12).toNat % 4 ≠ 0 ∧ UnmappedOffset 0xC00 ∧ ReadOnlyOffset 0xBFC :=
  ⟨rfl, rfl, rfl, by decide, by unfold UnmappedOffset; decide, by unfold ReadOnlyOffset; decide⟩
/-- Both in IDLE and in ACCUM, with the codes beside the admitted ones. -/
theorem witness_ReservedCommandSetsOnlyBadcmd :
    (0x02#32).toNat % 256 ∉ [0x00, 0x01, 0x10, 0x11, 0x20, 0x21, 0x22, 0xF0] ∧
    (0x1FF#32).toNat % 256 ∉ [0x00, 0x01, 0x10, 0x11, 0x20, 0x21, 0x22, 0xF0] ∧
    { inAccum 5 [] with pending := [.op (.hostWrite 0x004 0x23)] }.pending = .op (.hostWrite 0x004 0x23) :: [] ∧
    (inAccum 5 []).resetLine = false := by decide
theorem witness_CycleOrderLetsTheByteWin :
    (inAccum 1 []).pending = [] ∧ (inAccum 1 []).resetLine = false ∧
    decode (HostAccess.read 0x040).raw = .ok .rdFrStat ∧ decode (HostAccess.write 0x004 0x21).raw = .ok .rxDecode ∧
    (inAccum 1 []).frState = .accum ∧ (inAccum 1 []).frRemain = 1 ∧
    (inAccum 1 []).rxbuf.length < Config.rxCap ∧ (inAccum 1 []).frComplete = false ∧
    (inAccum 1 []).frTimedout = false := by decide
theorem witness_ResetLeavesTheStatedValues :
    { loadedV with pending := [.reset true, .op .tick] }.pending = .reset true :: [.op .tick] := by decide
theorem witness_HardwareResetAndItsMask :
    { loadedV with pending := [.reset true] }.pending = .reset true :: [] ∧
    { State.reset with pending := [.op .tick], resetLine := true }.resetLine = true ∧
    { State.reset with pending := [.reset false], resetLine := true }.pending = .reset false :: [] := by decide
theorem witness_ResetStateHeldWhileAsserted :
    let s := { State.reset with pending := [.op .tick], resetLine := true }
    ResetHeld s ∧ s.resetLine = true ∧ step s = .next { s with pending := [] } :=
  ⟨fun _ => rfl, rfl, rfl⟩
theorem witness_ReadsChangeNothing :
    isRead .rdCap = true ∧ isRead (.rdRxb 255) = true ∧ isRead .rdDecData2 = true ∧ isRead .nop = false := by decide
theorem witness_ChecksumUnitIsolated :
    exec (.csAdd 1) State.reset = .next { State.reset with csAcc := 1 } ∧ Instr.csAdd 1 ≠ .csClr ∧
    Instr.csAdd 1 ≠ .blkReset ∧ ∀ r, Instr.csAdd 1 ≠ .csSetchk r :=
  ⟨rfl, by decide, by decide, fun _ => by simp⟩
theorem witness_ChecksumUnitWrites : loadedV.csAcc = 0 ∧ (0x101#32).toNat % 256 = 0x01 := by decide
/-- K8 and K11: only the marker differs. -/
theorem witness_CsumIsASevenBitAccumulator :
    [(0x85 : Byte), 0x56, 0x03, 0x00].map (fun b => b.toNat % 128)
      = [(0x05 : Byte), 0x56, 0x03, 0x00].map (fun b => b.toNat % 128) := by decide
theorem witness_SingleByteChangeDetected :
    (0x85#8).toNat % 128 ≠ (0x86#8).toNat % 128 ∧ ¬ (0x85#8).toNat % 128 ≠ (0x05#8).toNat % 128 := by decide
theorem witness_TxEncodeQueuesTheFrame :
    loadedV.txNonascii = false ∧ loadedV.txOvf = false ∧ loadedV.txq = [] := by decide
theorem witness_TxEncodeRefusedSetsTheFlags :
    { loadedV with txNonascii := true }.txNonascii = true ∧ { loadedV with txOvf := true }.txOvf = true ∧
    { loadedV with txq := [0x60] }.txq ≠ [] := by decide
theorem witness_TxPopEmitsTheHead :
    { loadedV with txq := [0x60] }.txq = 0x60 :: [] ∧ loadedV.txq = [] := by decide
/-- The empty payload and the two ends of the admitted byte values. -/
theorem witness_EncodedFrameShape : AsciiBytes [] ∧ AsciiBytes [0x00, 0x7F] ∧ ¬ AsciiBytes [0x80] := by
  unfold AsciiBytes; decide
theorem witness_SerializerIndependentOfFramer :
    exec .txClr loadedV = .next { loadedV with txp := [] } ∧ exec .txPop loadedV = .next loadedV ∧
    exec (.txSetaddr 9) loadedV = .next { loadedV with txAddr := 9 } := ⟨rfl, rfl, rfl⟩
theorem witness_TransmitStreamGrowsByFrames :
    exec .txEncode loadedV = .next { loadedV with txq := [0x85, 0x56, 0x85, 0x60] } ∧ Instr.txEncode ≠ .blkReset :=
  ⟨rfl, by decide⟩
/-- A state of an attempt and a state after one, both with a frame half drained, meet the invariant. -/
theorem inv_of_half_drained (f : FrState) (n : BitVec 32) (d : Bool) (h : f = .accum → n ≠ 0 ∧ d = false)
    (hd : f = .done ↔ d = true) :
    Inv { loadedV with
      frState := f, frRemain := n, frTimedout := d, txStream := [0x85, 0x56], txq := [0x85, 0x60] } where
  txpFits := by show 1 ≤ 252; decide
  txpAscii := by show ∀ b ∈ [(0x56 : Byte)], marker b = false; decide
  txqFrame := .inr ⟨[0x85, 0x56, 0x85, 0x60], ⟨5, [0x56], by unfold AsciiBytes; decide, by decide, by decide⟩,
    ⟨[0x85, 0x56], rfl⟩⟩
  rxFits := Nat.zero_le _
  accumRuns := fun hf => ⟨(h hf).1, rfl, (h hf).2⟩
  doneOnce := by cases d <;> simp_all [loadedV, State.reset]
  notBoth := by simp [loadedV, State.reset]
  decCurrent := fun _ => decodeRx_nil.symm
  completeValid := by simp [loadedV, State.reset]
theorem witness_TransmitStreamIsWholeFrames :
    let s := { loadedV with txStream := [0x85, 0x56], txq := [0x85, 0x60] }
    Inv s ∧ WholeFrames s ∧ exec .txPop s = .next { s with txStream := [0x85, 0x56, 0x85], txq := [0x60] } :=
  ⟨inv_of_half_drained .idle 0 false (by simp) (by simp),
    ⟨[[0x85, 0x56, 0x85, 0x60]], by
      simp only [List.mem_singleton, forall_eq]
      exact ⟨5, [0x56], by unfold AsciiBytes; decide, by decide, by decide⟩, rfl⟩, rfl⟩
theorem witness_SerializerReads : 0 < loadedV.txp.length ∧ loadedV.txp.length ≤ 1 := by decide
theorem witness_GatedWritesRefused :
    timedOut.frState ≠ .idle ∧ (inAccum 5 []).frState ≠ .idle ∧ (inAccum 5 []).frState = .accum := by decide
theorem witness_RxPushStoresOrOverflows :
    State.reset.frState = .idle ∧ State.reset.rxbuf.length < Config.rxCap ∧
    { State.reset with rxbuf := fullBuffer }.frState = .idle ∧
    { State.reset with rxbuf := fullBuffer }.rxbuf.length = Config.rxCap := by
  exact ⟨rfl, by decide, rfl, List.length_replicate⟩
/-- Both states that admit RX_CLR, RX_DECODE, FR_START, FR_SETCTRL and FR_SETTMO. -/
theorem witness_RxClrAndRxDecode : State.reset.frState ≠ .accum ∧ timedOut.frState ≠ .accum := by decide
/-- Four bytes; an unrecognized status; a wrong trailer, and the right trailer with bit 7 set. -/
theorem witness_EchoStepVerdicts :
    [(0x85 : Byte), 0x56, 0x03, 0x00].length < 5 ∧ tvMap 0x00 = 0 ∧ tvMap 0x0F = 0 ∧ tvMap 0x01 ≠ 0 ∧ tvMap 0x0E ≠ 0 ∧
    (0xDE#8).toNat ≠ ((0x85#8).toNat + (0x56#8).toNat + (0x03#8).toNat + (0x00#8).toNat) % 128 ∧
    (0x5F#8).toNat ≠ ((0x85#8).toNat + (0x56#8).toNat + (0x03#8).toNat + (0x00#8).toNat) % 128 := by decide
/-- The echo section of the D vectors is valid under TV_MAP. -/
theorem echo_valid : EchoSection tvMap echo := ⟨0x85, 0x56, 0x03, 0x00, by decide, by decide⟩
/-- The data section of D10. -/
theorem data_valid : DataSection 0x85 0x56 [0x31, 0x32, 0x33] [0x85, 0x56, 0x31, 0x32, 0x33, 0x85, 0x76] :=
  ⟨by decide, by decide⟩
/-- The shortest data section, D12. -/
theorem data_valid_empty : DataSection 0x85 0x56 [] [0x85, 0x56, 0x85, 0x60] := ⟨by decide, by decide⟩
theorem witness_IncompleteDataSectionVerdicts :
    EchoSection tvMap echo ∧ (0x85 : Byte) ∉ ([] : List Byte) ∧ (0x85 : Byte) ∉ [(0x31 : Byte), 0x05] :=
  ⟨echo_valid, by decide, by decide⟩
/-- The right trailer of D10, and D20's with bit 7 set. -/
theorem witness_DataTrailerVerdicts :
    EchoSection tvMap echo ∧ (0x85 : Byte) ∉ [(0x31 : Byte), 0x32, 0x33] ∧
    (0x76#8).toNat = (csum ([0x85, 0x56] ++ [0x31, 0x32, 0x33] ++ [0x85])).toNat ∧
    (0xF6#8).toNat ≠ (csum ([0x85, 0x56] ++ [0x31, 0x32, 0x33] ++ [0x85])).toNat :=
  ⟨echo_valid, by decide, by decide, by decide⟩
/-- D1 is an echo section alone; D15 and D12 are an echo and a data section, with and without more bytes. -/
theorem witness_DecodeAcceptsExactlyValidResponses :
    EchoSection tvMap echo ∧
    (∃ e d rest a c p, echo ++ [0x85, 0x56, 0x31, 0x32, 0x33, 0x85, 0x76, 0x0D] = e ++ d ++ rest ∧
      EchoSection tvMap e ∧ DataSection a c p d) ∧
    (∃ e d rest a c p, echo ++ [0x85, 0x56, 0x85, 0x60] = e ++ d ++ rest ∧
      EchoSection tvMap e ∧ DataSection a c p d) :=
  ⟨echo_valid, ⟨echo, _, [0x0D], _, _, _, by decide, echo_valid, data_valid⟩,
    ⟨echo, _, [], _, _, _, by decide, echo_valid, data_valid_empty⟩⟩
theorem witness_EchoRoundTrip :
    tvMap 0x03 ≠ 0 ∧ (0x85 : Byte) = 0x80#8 ||| (5#7).setWidth 8 ∧ (0x05 : Byte) = (5#7).setWidth 8 := by decide
theorem witness_DataRoundTrip :
    EchoSection tvMap echo ∧ DataSection 0x85 0x56 [0x31, 0x32, 0x33] [0x85, 0x56, 0x31, 0x32, 0x33, 0x85, 0x76] ∧
    (echo ++ [0x85, 0x56, 0x31, 0x32, 0x33, 0x85, 0x76]).length ≤ Config.rxCap ∧ 2 < [(0x31 : Byte), 0x32, 0x33].length ∧
    { State.reset with rxbuf := echo ++ [0x85, 0x56, 0x31, 0x32, 0x33, 0x85, 0x76] }.rxbuf
      = echo ++ [0x85, 0x56, 0x31, 0x32, 0x33, 0x85, 0x76] :=
  ⟨echo_valid, data_valid, by decide, by decide, rfl⟩
/-- D4, D6, D13 and D12, each extended by a byte. -/
theorem witness_VerdictsUnderExtension :
    (decodeFrame tvMap [0x85, 0x56, 0x00, 0x00, 0x5B]).verdict = .errStatus ∧
    (decodeFrame tvMap [0x85, 0x56, 0x03, 0x00, 0x5F]).verdict = .errCsum ∧
    (decodeFrame tvMap (echo ++ [0x85, 0x56, 0x31, 0x32, 0x33, 0x85, 0x77])).verdict = .errCsum ∧
    (decodeFrame tvMap (echo ++ [0x85, 0x56, 0x85, 0x60])).verdict = .okEchoData ∧ [(0x0D : Byte)] ≠ [] := by
  decide +kernel
theorem witness_DecWrittenOnlyByItsOperations :
    (∃ t, exec .blkReset loadedV = .next t) ∧ (∃ t, exec .rxClr timedOut = .next t) ∧
    (∃ t, exec .rxDecode timedOut = .next t) ∧ timedOut.frState ≠ .accum ∧
    (∃ t, exec (.rxByte 0x85) (inAccum 5 []) = .next t) ∧ stores (.rxByte 0x85) (inAccum 5 []) 0x85 :=
  ⟨⟨_, rfl⟩, ⟨_, rfl⟩, ⟨_, rfl⟩, by decide, ⟨_, rfl⟩, rfl, rfl, by decide⟩
theorem witness_DecodeResultReads :
    1 < { State.reset with rxbuf := [0x85, 0x56] }.rxbuf.length ∧
    { State.reset with rxbuf := [0x85, 0x56] }.rxbuf.length ≤ 2 := by decide
/-- A budget of 0 and the largest one. -/
theorem witness_FrStartBeginsAnAttempt :
    timedOut.frState ≠ .accum ∧ timedOut.frTimeout = 0 ∧
    { State.reset with frTimeout := 0xFFFFFFFF }.frState ≠ .accum := by decide
theorem witness_FramerSettings : State.reset.frState ≠ .accum ∧ timedOut.frState ≠ .accum := by decide
/-- One byte of room, no room, and no attempt; the three clauses exclude each other. -/
theorem witness_RxByteStoresOrDrops :
    (inAccum 5 fullBuffer).frState = .accum ∧ (inAccum 5 fullBuffer).rxbuf.length = Config.rxCap ∧
    (inAccum 5 fullBuffer.tail).frState = .accum ∧ (inAccum 5 fullBuffer.tail).rxbuf.length < Config.rxCap ∧
    State.reset.frState ≠ .accum :=
  ⟨rfl, List.length_replicate, rfl, by
    show (List.replicate 255 (0x11 : Byte)).tail.length < 255
    rw [List.length_tail, List.length_replicate]; decide, by decide⟩
theorem witness_TickCountsDown :
    (inAccum 2 []).frState = .accum ∧ 1 < (inAccum 2 []).frRemain.toNat ∧ (inAccum 1 []).frRemain = 1 ∧
    State.reset.frState ≠ .accum := by decide
/-- A budget of 1 with no tick and with its last. -/
theorem witness_AttemptTimesOutAtItsBudget :
    let s := { State.reset with frTimeout := 1 }
    s.frState ≠ .accum ∧ 1 ≤ s.frTimeout.toNat ∧ 0 < s.frTimeout.toNat ∧ 1 = s.frTimeout.toNat := by decide
theorem witness_FramerTransitionsExactly :
    { State.reset with frTimeout := 1 }.frState ≠ .accum ∧ { State.reset with frTimeout := 1 }.frTimeout ≠ 0 ∧
    timedOut.frTimeout = 0 ∧ stores (.rxByte 0x85) (inAccum 5 []) 0x85 ∧ (inAccum 1 []).frRemain = 1 ∧
    (∃ t, exec .frStart timedOut = .next t) ∧ { loadedV with pending := [.reset true] }.pending = .reset true :: [] :=
  ⟨by decide, by decide, rfl, ⟨rfl, rfl, by decide⟩, rfl, ⟨_, rfl⟩, rfl⟩
theorem witness_HostCannotEndAnAttempt :
    (inAccum 5 []).frState = .accum ∧ Instr.rxClr ≠ .blkReset ∧ Instr.rxClr.row.format = .cmd ∧
    (Instr.rxPush 1).row.format = .regw ∧ Instr.rdFrStat.row.format = .regr ∧
    (∃ t, exec .rxClr (inAccum 5 []) = .next t) := ⟨rfl, by decide, rfl, rfl, rfl, ⟨_, rfl⟩⟩
theorem witness_FinishedAttemptIsStable :
    let s := { loadedV with
      frState := .done, frRemain := 0, frTimedout := true, txStream := [0x85, 0x56], txq := [0x85, 0x60] }
    Inv s ∧ s.frState = .done ∧ exec (.rxByte 0x41) s = .next { s with frStray := true, rxStream := [0x41] } ∧
    delivered (.rxByte 0x41) = some 0x41 :=
  ⟨inv_of_half_drained .done 0 true (by simp) (by simp), rfl, rfl, rfl⟩
theorem witness_StickyFlagsClearedOnlyByName :
    { State.reset with herr := 0x1F }.herr.getLsbD 4 = true ∧ Instr.herrW1c 0x0F ≠ .blkReset ∧
    (∃ t, exec (.herrW1c 0x0F) { State.reset with herr := 0x1F } = .next t ∧ t.herr.getLsbD 4 = true) ∧
    { State.reset with frStray := true, txOvf := true }.frStray = true :=
  ⟨by decide, by decide, ⟨_, rfl, by decide⟩, rfl⟩
/-- Each flag is raised by its event in some state. -/
theorem witness_FlagsSetOnlyByTheirEvents :
    (after .rxClr (inAccum 5 [])).herr.getLsbD 2 = true ∧ (after (.rxPush 1) timedOut).herr.getLsbD 2 = true ∧
    (after .txEncode { loadedV with txq := [0x60] }).herr.getLsbD 3 = true ∧
    (after .txEncode { loadedV with txOvf := true }).herr.getLsbD 4 = true ∧
    (after .tick (inAccum 1 [])).frTimedout = true ∧ (after .frStart State.reset).frTimedout = true ∧
    (after (.rxByte 1) State.reset).frStray = true := by decide
/-- An attempt runs and a frame is half drained: the state meets the invariant and a step goes on from it. -/
theorem witness_InvariantsKeptByEveryStep :
    let s := { loadedV with
      frState := .accum, frRemain := 1, frTimedout := false, txStream := [0x85, 0x56], txq := [0x85, 0x60] }
    Inv s ∧ step s = .next s :=
  ⟨inv_of_half_drained .accum 1 false (by simp) (by simp), rfl⟩

end Sys2Proof.Tests
end

section
/-! PROOFS. The pending inputs through a step (20_memory.md R84): no operation of the block is refused by the model or
reads the pending list, so a step leaves exactly the inputs after the one it took. -/

namespace Sys2Proof.Proofs

open Sys2Proof Sys2Proof.Machine

/-! ### The operations leave the pending inputs alone -/

@[simp] theorem encodeTx_pending (s : State) : s.encodeTx.pending = s.pending := by
  obtain ⟨-, -, e⟩ | ⟨-, e⟩ := encodeTx_cases s <;> rw [e]

@[simp] theorem popTx_pending (s : State) : s.popTx.pending = s.pending := by
  obtain ⟨-, e⟩ | ⟨b, q, -, e⟩ := popTx_cases s <;> rw [e]

@[simp] theorem pushRx_pending (s : State) (b : Byte) : (s.pushRx b).pending = s.pending := by
  obtain ⟨-, e⟩ | ⟨-, e⟩ := pushRx_cases s b <;> rw [e]

@[simp] theorem storeRx_pending (s : State) (b : Byte) : (s.storeRx b).pending = s.pending := by
  obtain ⟨-, e⟩ | ⟨-, e⟩ := storeRx_cases s b <;> rw [e]

@[simp] theorem acceptRx_pending (s : State) (b : Byte) : (s.acceptRx b).pending = s.pending := by
  obtain ⟨-, -, e⟩ | ⟨-, -, e⟩ | ⟨-, e⟩ := acceptRx_cases s b <;> rw [e]
  exact storeRx_pending s b

@[simp] theorem receive_pending (s : State) (b : Byte) : (s.receive b).pending = s.pending := by
  rw [receive_eq]
  exact acceptRx_pending s b

@[simp] theorem tickDown_pending (s : State) : s.tickDown.pending = s.pending := by
  obtain ⟨-, e⟩ | ⟨-, -, e⟩ | ⟨-, -, e⟩ := tickDown_cases s <;> rw [e]

@[simp] theorem rejectOp_pending (s : State) (o : RawOp) (r : Reject) : (s.rejectOp o r).pending = s.pending := by
  obtain ⟨-, e⟩ | ⟨-, e⟩ := rejectOp_cases s o r <;> rw [e]

/-- A gated operation keeps the pending inputs where its effect keeps them: a refusal keeps them too. -/
theorem gated_pending (s : State) (g : Gated) (f : State → State) (hf : (f s).pending = s.pending) :
    (s.gated g f).pending = s.pending := by
  obtain ⟨-, e⟩ | ⟨-, e⟩ := gated_cases s g f <;> rw [e]
  · exact hf
  · exact refuse_pending s .badstate

/-! ### Every instruction completes -/

/-- Every operation is total (00_scope.md R10) and none touches the inputs still to come. -/
theorem exec_completes_keeping_pending (i : Instr) (s : State) :
    ∃ t, exec i s = .next t ∧ t.pending = s.pending := by
  cases i with
  | nop | blkReset | herrW1c => exact ⟨_, rfl, rfl⟩
  | csClr | csAdd | csSetchk => exact ⟨_, rfl, rfl⟩
  | txClr | txSetaddr | txPush => exact ⟨_, rfl, rfl⟩
  | txEncode => exact ⟨_, rfl, encodeTx_pending s⟩
  | txPop => exact ⟨_, rfl, popTx_pending s⟩
  | rxPush b => exact ⟨_, rfl, gated_pending s .rxPush _ (pushRx_pending s b)⟩
  | rxClr => exact ⟨_, rfl, gated_pending s .rxClr _ (clearRx_pending s)⟩
  | rxDecode => exact ⟨_, rfl, gated_pending s .rxDecode _ (latchDec_pending s)⟩
  | frStart => exact ⟨_, rfl, gated_pending s .frStart _ (startAttempt_pending s)⟩
  | frSetctrl => exact ⟨_, rfl, gated_pending s .frSetctrl _ rfl⟩
  | frSettmo => exact ⟨_, rfl, gated_pending s .frSettmo _ rfl⟩
  | rxByte b => exact ⟨_, rfl, receive_pending s b⟩
  | addrByte a => exact ⟨_, rfl, receive_pending s (wireAddr a)⟩
  | csumByte c => exact ⟨_, rfl, receive_pending s (wireLow c)⟩
  | payloadByte p => exact ⟨_, rfl, receive_pending s (wireLow p)⟩
  | tick => exact ⟨_, rfl, tickDown_pending s⟩
  | rdCap | rdCmd | rdHerr | rdCsData | rdCsSum | rdCsCheck | rdTxAddr | rdTxPush | rdTxStat | rdRxPush
  | rdFrCtrl | rdFrTimeout | rdFrRemain | rdFrStat | rdDecStat | rdDecEcho | rdDecEcho2 | rdDecData | rdDecData2
  | rdRxb | rdTxp => exact ⟨_, rfl, reply_pending s _⟩

/-! ### One step, by what the fetch comes to -/

theorem step_of_fetch_idle {s : State} (h : fetch s = .idle) : step s = .next s := by
  simp only [step, h]

theorem step_of_fetch_handled {s t : State} (h : fetch s = .handled t) : step s = .next t := by
  simp only [step, h]

theorem step_of_fetch_run {s t : State} {i : Instr} (h : fetch s = .run i t) : step s = exec i t := by
  simp only [step, h]

theorem fetch_of_nothing_pending {s : State} (h : s.pending = []) : fetch s = .idle := by
  simp only [fetch, h]

/-- A pending input is taken off the list, whether it is dealt with at once or is an instruction still to run. -/
theorem fetch_consumes_the_oldest {s : State} {x : Input} {rest : List Input} (h : s.pending = x :: rest) :
    (∃ t, fetch s = .handled t ∧ t.pending = rest) ∨ (∃ i t, fetch s = .run i t ∧ t.pending = rest) := by
  obtain ⟨hp, -⟩ | ⟨rest', hp, hf⟩ | ⟨rest', hp, hf⟩ | ⟨o, rest', hp, -, hf⟩ | ⟨o, rest', i, hp, -, -, hf⟩ |
    ⟨o, rest', r, hp, -, -, hf⟩ := fetch_cases s <;> rw [h] at hp
  case inl => cases hp
  all_goals obtain ⟨-, rfl⟩ := List.cons.inj hp
  · exact .inl ⟨_, hf, rfl⟩
  · exact .inl ⟨_, hf, rfl⟩
  · exact .inl ⟨_, hf, rfl⟩
  · exact .inr ⟨i, _, hf, rfl⟩
  · exact .inl ⟨_, hf, rejectOp_pending _ o r⟩

theorem step_consumes_the_oldest {s : State} {x : Input} {rest : List Input} (h : s.pending = x :: rest) :
    ∃ t, step s = .next t ∧ t.pending = rest := by
  obtain ⟨t, hf, ht⟩ | ⟨i, t, hf, ht⟩ := fetch_consumes_the_oldest h
  · exact ⟨t, step_of_fetch_handled hf, ht⟩
  · obtain ⟨u, hu, hpend⟩ := exec_completes_keeping_pending i t
    exact ⟨u, (step_of_fetch_run hf).trans hu, hpend.trans ht⟩

/-- Settles O8: an idle fetch leaves the state, and otherwise the fetch takes the oldest input off the list and whatever
it leads to completes without touching the list. -/
theorem stepConsumesTheOldestInput : Obligations.StepConsumesTheOldestInput :=
  ⟨fun _ h => step_of_fetch_idle (fetch_of_nothing_pending h), fun _ _ _ h => step_consumes_the_oldest h⟩

end Sys2Proof.Proofs
end

section
/-! PROOFS. The rules of the whole state (10_state.md R23, R46, R50, R51): what an operation can do to the state is said
once, as `Effect`, and each rule about flags, checksum registers, DEC and the invariants is a split over its cases. -/

namespace Sys2Proof.Proofs

open Sys2Proof Sys2Proof.Machine

/-! ### What an operation can do to the state -/

/-- The next states an operation can answer, each with the condition under which it does: the effect of 40_checksum.md to
44_system.md, or the refusal of 43_framer.md R245 and 41_serializer.md R166. -/
inductive Effect : Instr → State → State → Prop
  | nop {s} : Effect .nop s s
  | read {i s} (w : Word) (hi : isRead i = true) : Effect i s (s.reply w)
  | blkReset {s} : Effect .blkReset s s.blockReset
  | herrW1c {s} (m : BitVec 5) : Effect (.herrW1c m) s (s.clearHerr m)
  | csClr {s} : Effect .csClr s { s with csAcc := 0, csRcvd := 0 }
  | csAdd {s} (b : Byte) : Effect (.csAdd b) s { s with csAcc := s.csAcc + low7 b }
  | csSetchk {s} (r : Byte) : Effect (.csSetchk r) s { s with csRcvd := r }
  | txSetaddr {s} (a : BitVec 7) : Effect (.txSetaddr a) s { s with txAddr := a }
  | txPush {s} (b : Byte) : Effect (.txPush b) s (s.pushTx b)
  | txClr {s} : Effect .txClr s { s with txp := [], txNonascii := false, txOvf := false }
  | txEncode {s} (hbad : txBad s = false) (hq : s.txq = []) :
      Effect .txEncode s { s with txq := encodeFrame s.txAddr s.txp }
  | txEncodeRefused {s} (hr : txBad s = true ∨ s.txq ≠ []) :
      Effect .txEncode s { s with herr := s.herr ||| (if txBad s then herrMask .txbad else 0)
                                                 ||| (if txBusy s then herrMask .txbusy else 0) }
  | txPopEmpty {s} (hq : s.txq = []) : Effect .txPop s s
  | txPop {s} (b : Byte) (q : List Byte) (hq : s.txq = b :: q) :
      Effect .txPop s { s with txq := q, txStream := s.txStream ++ [b] }
  | rxPush {s} (b : Byte) (hf : s.frState = .idle) (hl : s.rxbuf.length < Config.rxCap) :
      Effect (.rxPush b) s { s with rxbuf := s.rxbuf ++ [b] }
  | rxPushFull {s} (b : Byte) (hf : s.frState = .idle) (hl : Config.rxCap ≤ s.rxbuf.length) :
      Effect (.rxPush b) s { s with frOvf := true }
  | rxPushRefused {s} (b : Byte) (hf : s.frState ≠ .idle) : Effect (.rxPush b) s (s.refuse .badstate)
  | rxClr {s} (hf : s.frState ≠ .accum) : Effect .rxClr s s.clearRx
  | rxDecode {s} (hf : s.frState ≠ .accum) : Effect .rxDecode s s.latchDec
  | frStart {s} (hf : s.frState ≠ .accum) : Effect .frStart s s.startAttempt
  | frSetctrl {s} (e : Bool) (hf : s.frState ≠ .accum) : Effect (.frSetctrl e) s { s with expectData := e }
  | frSettmo {s} (v : Word) (hf : s.frState ≠ .accum) : Effect (.frSettmo v) s { s with frTimeout := v }
  | attemptRefused {i s} (hf : s.frState = .accum)
      (hi : i = .rxClr ∨ i = .rxDecode ∨ i = .frStart ∨ (∃ e, i = .frSetctrl e) ∨ ∃ v, i = .frSettmo v) :
      Effect i s (s.refuse .badstate)
  | rxStored {i s} (b : Byte) (hs : stores i s b)
      (hc : complete (decodeRx (s.rxbuf ++ [b])) s.expectData = false) :
      Effect i s { s with
        rxbuf := s.rxbuf ++ [b], dec := decodeRx (s.rxbuf ++ [b]), rxStream := s.rxStream ++ [b] }
  | rxCompleted {i s} (b : Byte) (hs : stores i s b)
      (hc : complete (decodeRx (s.rxbuf ++ [b])) s.expectData = true) :
      Effect i s { s with
        rxbuf := s.rxbuf ++ [b], dec := decodeRx (s.rxbuf ++ [b]), rxStream := s.rxStream ++ [b]
        frState := .done, frComplete := true }
  | rxDropped {i s} (b : Byte) (hd : delivered i = some b) (hf : s.frState = .accum)
      (hl : Config.rxCap ≤ s.rxbuf.length) :
      Effect i s { s with frOvf := true, rxStream := s.rxStream ++ [b] }
  | rxStray {i s} (b : Byte) (hd : delivered i = some b) (hf : s.frState ≠ .accum) :
      Effect i s { s with frStray := true, rxStream := s.rxStream ++ [b] }
  | tickOutside {s} (hf : s.frState ≠ .accum) : Effect .tick s s
  | tick {s} (hf : s.frState = .accum) (hr : s.frRemain ≠ 1) :
      Effect .tick s { s with frRemain := s.frRemain - 1 }
  | tickLast {s} (hf : s.frState = .accum) (hr : s.frRemain = 1) :
      Effect .tick s { s with frRemain := 0, frState := .done, frTimedout := true }

/-- RX_PUSH is performed in IDLE alone (43_framer.md R245). -/
theorem gated_rxPush_cases (s : State) (f : State → State) :
    (s.frState = .idle ∧ s.gated .rxPush f = f s) ∨
    (s.frState ≠ .idle ∧ s.gated .rxPush f = s.refuse .badstate) := by
  have hadm : admitted .rxPush s.frState = (s.frState == .idle) := by cases s.frState <;> rfl
  obtain ⟨ha, e⟩ | ⟨ha, e⟩ := gated_cases s .rxPush f <;> rw [hadm] at ha
  · exact .inl ⟨by simpa using ha, e⟩
  · exact .inr ⟨by simpa using ha, e⟩

/-- The other gated operations are performed wherever no attempt runs (43_framer.md R245). -/
theorem gated_cases_of_ne_rxPush (s : State) {g : Gated} (hg : g ≠ .rxPush) (f : State → State) :
    (s.frState ≠ .accum ∧ s.gated g f = f s) ∨ (s.frState = .accum ∧ s.gated g f = s.refuse .badstate) := by
  have hadm : admitted g s.frState = (s.frState != .accum) := by
    cases g with
    | rxPush => exact absurd rfl hg
    | _ => rfl
  obtain ⟨ha, e⟩ | ⟨ha, e⟩ := gated_cases s g f <;> rw [hadm] at ha
  · exact .inl ⟨by simpa using ha, e⟩
  · exact .inr ⟨by simpa using ha, e⟩

theorem gated_of_not_accum {s : State} (hf : s.frState ≠ .accum) {g : Gated} (hg : g ≠ .rxPush) (f : State → State) :
    s.gated g f = f s :=
  (gated_cases_of_ne_rxPush s hg f).elim And.right (fun hacc => absurd hacc.1 hf)

/-- An instruction that delivers a byte is RX_BYTE of it, whatever wire class it is shown with (log 3). -/
theorem exec_delivered {i : Instr} {b : Byte} (hd : delivered i = some b) (s : State) :
    exec i s = .next (s.receive b) := by
  cases i with
  | rxByte | addrByte | csumByte | payloadByte =>
    cases hd
    rfl
  | _ => cases hd

/-- A stored byte is decoded with the buffer (43_framer.md R236). -/
theorem receive_of_stores {i : Instr} {s : State} {b : Byte} (hs : stores i s b) :
    s.receive b = { s.storeRx b with rxStream := s.rxStream ++ [b] } := by
  obtain ⟨-, hf, hl⟩ := hs
  simp [receive_eq, State.acceptRx, hf, hl]

theorem effect_encodeTx (s : State) : Effect .txEncode s s.encodeTx := by
  obtain ⟨hbad, hq, e⟩ | ⟨hr, e⟩ := encodeTx_cases s <;> rw [e]
  · exact .txEncode hbad hq
  · exact .txEncodeRefused hr

theorem effect_popTx (s : State) : Effect .txPop s s.popTx := by
  obtain ⟨hq, e⟩ | ⟨b, q, hq, e⟩ := popTx_cases s <;> rw [e]
  · exact .txPopEmpty hq
  · exact .txPop b q hq

theorem effect_pushRx (b : Byte) (s : State) : Effect (.rxPush b) s (s.gated .rxPush (fun s => s.pushRx b)) := by
  obtain ⟨hf, e⟩ | ⟨hf, e⟩ := gated_rxPush_cases s (fun s => s.pushRx b) <;> rw [e]
  · obtain ⟨hl, e'⟩ | ⟨hl, e'⟩ := pushRx_cases s b <;> simp only [e']
    · exact .rxPush b hf hl
    · exact .rxPushFull b hf hl
  · exact .rxPushRefused b hf

theorem effect_receive {i : Instr} {b : Byte} (hd : delivered i = some b) (s : State) :
    Effect i s (s.receive b) := by
  obtain ⟨hf, hl, -⟩ | ⟨hf, hl, e⟩ | ⟨hf, e⟩ := acceptRx_cases s b
  · have hs : stores i s b := ⟨hd, hf, hl⟩
    rw [receive_of_stores hs]
    obtain ⟨hc, e⟩ | ⟨hc, e⟩ := storeRx_cases s b <;> rw [e]
    · exact .rxCompleted b hs hc
    · exact .rxStored b hs hc
  · rw [receive_eq, e]
    exact .rxDropped b hd hf hl
  · rw [receive_eq, e]
    exact .rxStray b hd hf

theorem effect_tickDown (s : State) : Effect .tick s s.tickDown := by
  obtain ⟨hf, e⟩ | ⟨hf, hr, e⟩ | ⟨hf, hr, e⟩ := tickDown_cases s <;> rw [e]
  · exact .tickOutside hf
  · exact .tickLast hf hr
  · exact .tick hf hr

/-- An operation refused exactly in ACCUM, from its effect elsewhere. -/
theorem effect_gated {i : Instr} {s : State} {g : Gated} (hg : g ≠ .rxPush) {f : State → State}
    (hi : i = .rxClr ∨ i = .rxDecode ∨ i = .frStart ∨ (∃ e, i = .frSetctrl e) ∨ ∃ v, i = .frSettmo v)
    (hopen : s.frState ≠ .accum → Effect i s (f s)) : Effect i s (s.gated g f) := by
  obtain ⟨hf, e⟩ | ⟨hf, e⟩ := gated_cases_of_ne_rxPush s hg f <;> rw [e]
  · exact hopen hf
  · exact .attemptRefused hf hi

theorem exec_has_effect (i : Instr) (s : State) : ∃ t, exec i s = .next t ∧ Effect i s t := by
  cases i with
  | nop => exact ⟨_, rfl, .nop⟩
  | blkReset => exact ⟨_, rfl, .blkReset⟩
  | herrW1c m => exact ⟨_, rfl, .herrW1c m⟩
  | csClr => exact ⟨_, rfl, .csClr⟩
  | csAdd b => exact ⟨_, rfl, .csAdd b⟩
  | csSetchk r => exact ⟨_, rfl, .csSetchk r⟩
  | txSetaddr a => exact ⟨_, rfl, .txSetaddr a⟩
  | txPush b => exact ⟨_, rfl, .txPush b⟩
  | txClr => exact ⟨_, rfl, .txClr⟩
  | txEncode => exact ⟨_, rfl, effect_encodeTx s⟩
  | txPop => exact ⟨_, rfl, effect_popTx s⟩
  | rxPush b => exact ⟨_, rfl, effect_pushRx b s⟩
  | rxClr => exact ⟨_, rfl, effect_gated (by decide) (by simp) .rxClr⟩
  | rxDecode => exact ⟨_, rfl, effect_gated (by decide) (by simp) .rxDecode⟩
  | frStart => exact ⟨_, rfl, effect_gated (by decide) (by simp) .frStart⟩
  | frSetctrl e => exact ⟨_, rfl, effect_gated (by decide) (by simp) (.frSetctrl e)⟩
  | frSettmo v => exact ⟨_, rfl, effect_gated (by decide) (by simp) (.frSettmo v)⟩
  | rxByte | addrByte | csumByte | payloadByte => exact ⟨_, rfl, effect_receive rfl s⟩
  | tick => exact ⟨_, rfl, effect_tickDown s⟩
  | rdCap | rdCmd | rdHerr | rdCsData | rdCsSum | rdCsCheck | rdTxAddr | rdTxPush | rdTxStat | rdRxPush
  | rdFrCtrl | rdFrTimeout | rdFrRemain | rdFrStat | rdDecStat | rdDecEcho | rdDecEcho2 | rdDecData | rdDecData2
  | rdRxb | rdTxp => exact ⟨_, rfl, .read _ rfl⟩

/-- Whatever an instruction answers is one of its effects. -/
theorem effect_of_exec {i : Instr} {s t : State} (h : exec i s = .next t) : Effect i s t := by
  obtain ⟨u, hu, heff⟩ := exec_has_effect i s
  cases hu.symm.trans h
  exact heff

/-! ### The reset values and the invariants at reset -/

/-- The state of reset has every value of R51, whatever the fields are that the spec does not give. -/
theorem resetValues_of_reset (txs rxs : List Byte) (rd : Option Word) (pend : List Input) (line : Bool) :
    ResetValues { State.reset with
      txStream := txs, rxStream := rxs, readData := rd, pending := pend, resetLine := line } :=
  ⟨rfl, rfl, rfl, rfl, rfl, rfl, rfl, rfl, rfl, rfl, rfl, rfl, rfl, rfl, rfl, rfl, rfl, decodeRx_nil.symm, rfl⟩

theorem step_of_reset_asserted {s : State} {rest : List Input} (h : s.pending = .reset true :: rest) :
    step s = .next { State.reset with pending := rest, resetLine := true } := by
  apply step_of_fetch_handled
  simp only [fetch, h, State.hardReset]

/-- Settles O12: all three states are the reset state but for fields outside R51. -/
theorem resetLeavesTheStatedValues : Obligations.ResetLeavesTheStatedValues :=
  ⟨resetValues_of_reset [] [] none [] false,
    fun _ rest h => ⟨_, step_of_reset_asserted h, resetValues_of_reset [] [] none rest true⟩,
    fun s => ⟨_, rfl,
      resetValues_of_reset s.txStream s.rxStream s.readData s.pending s.resetLine, rfl⟩⟩

theorem inv_reset : Inv State.reset where
  txpFits := Nat.zero_le _
  txpAscii := fun _ hb => absurd hb List.not_mem_nil
  txqFrame := .inl rfl
  rxFits := Nat.zero_le _
  accumRuns := nofun
  doneOnce := by decide
  notBoth := by decide
  decCurrent := fun h => absurd rfl h
  completeValid := nofun

/-- Settles O59: nothing is queued, running or emitted at reset, and the reset line is released. -/
theorem invariantsHoldAtReset : Obligations.InvariantsHoldAtReset :=
  ⟨inv_reset, nofun, [], nofun, rfl⟩

/-! ### The invariants of R50 through an operation

A case names the items of R50 that the effect touches; every other item holds of fields the effect leaves alone. -/

/-- Outside DONE an attempt has no outcome (10_state.md R50 item 6). -/
theorem no_outcome {s : State} (hi : Inv s) (hf : s.frState ≠ .done) :
    s.frComplete = false ∧ s.frTimedout = false := by
  have heq : s.frComplete = s.frTimedout := not_not.mp (fun hne => hf (hi.doneOnce.mpr hne))
  have hnot := hi.notBoth
  rw [← heq] at hnot ⊢
  simpa using hnot

/-- A complete response is one of the two OK verdicts (43_framer.md R232). -/
theorem verdict_ok_of_complete {r : Dec} {e : Bool} (h : complete r e = true) :
    r.verdict = .okEcho ∨ r.verdict = .okEchoData := by
  simp only [complete, Bool.or_eq_true, Bool.and_eq_true, beq_iff_eq] at h
  obtain hv | ⟨hv, -⟩ := h
  · exact .inr hv
  · exact .inl hv

theorem asciiBytes_append {p : List Byte} {b : Byte} (hp : AsciiBytes p) (hb : marker b = false) :
    AsciiBytes (p ++ [b]) := by
  intro c hc
  obtain hc | hc := List.mem_append.mp hc
  · exact hp c hc
  · rwa [List.mem_singleton.mp hc]

/-- A pushed byte is stored only where it is ASCII and fits (41_serializer.md R163). -/
theorem inv_pushTx {s : State} (hi : Inv s) (b : Byte) : Inv (s.pushTx b) := by
  by_cases hst : marker b = false ∧ s.txp.length < Config.txCap
  · have htxp : (s.pushTx b).txp = s.txp ++ [b] := if_pos hst
    exact { hi with
      txpFits := by rw [htxp, List.length_append]; exact hst.2
      txpAscii := by rw [htxp]; exact asciiBytes_append hi.txpAscii hst.1 }
  · have htxp : (s.pushTx b).txp = s.txp := if_neg hst
    exact { hi with
      txpFits := by rw [htxp]; exact hi.txpFits
      txpAscii := by rw [htxp]; exact hi.txpAscii }

/-- A whole frame enters the queue, its payload being within the invariant. -/
theorem inv_encode {s : State} (hi : Inv s) : Inv { s with txq := encodeFrame s.txAddr s.txp } :=
  { hi with
    txqFrame := .inr ⟨_, ⟨s.txAddr, s.txp, hi.txpAscii, hi.txpFits, rfl⟩, List.suffix_rfl⟩ }

/-- What is left of a suffix of a frame after its head is a suffix of that frame. -/
theorem inv_pop {s : State} (hi : Inv s) {b : Byte} {q : List Byte} (hq : s.txq = b :: q) :
    Inv { s with txq := q, txStream := s.txStream ++ [b] } := by
  have hsuf : ∃ f, RequestFrame f ∧ s.txq <:+ f := by
    refine hi.txqFrame.resolve_left ?_
    rw [hq]
    exact List.cons_ne_nil b q
  obtain ⟨f, hfr, hs⟩ := hsuf
  rw [hq] at hs
  exact { hi with txqFrame := .inr ⟨f, hfr, (List.suffix_cons b q).trans hs⟩ }

theorem inv_blockReset (s : State) : Inv s.blockReset := { inv_reset with }

theorem inv_clearRx {s : State} (hi : Inv s) : Inv s.clearRx :=
  { hi with
    rxFits := Nat.zero_le _
    accumRuns := nofun
    doneOnce := by simp
    notBoth := by simp
    decCurrent := fun h => absurd rfl h
    completeValid := nofun }

/-- In IDLE no outcome is recorded, and elsewhere the decode is current already, so latching it keeps item 8. -/
theorem inv_latchDec {s : State} (hi : Inv s) : Inv s.latchDec :=
  { hi with
    decCurrent := fun _ => rfl
    completeValid := fun hc => by
      have hrun : s.frState ≠ .idle := by
        intro hidle
        obtain ⟨hno, -⟩ := no_outcome hi (by simp [hidle])
        exact Bool.false_ne_true (hno.symm.trans hc)
      have hdec : s.latchDec.dec = s.dec := (hi.decCurrent hrun).symm
      rw [hdec]
      exact hi.completeValid hc }

/-- An attempt with a budget is running with time left; one without has timed out (43_framer.md R233). -/
theorem inv_startAttempt {s : State} (hi : Inv s) : Inv s.startAttempt :=
  { hi with
    rxFits := Nat.zero_le _
    accumRuns := by by_cases h0 : s.frTimeout = 0 <;> simp [h0]
    doneOnce := by by_cases h0 : s.frTimeout = 0 <;> simp [h0]
    notBoth := by simp
    decCurrent := fun _ => rfl
    completeValid := nofun }

/-- A stored byte that completes nothing leaves the attempt running without an outcome. -/
theorem inv_stored {s : State} (hi : Inv s) (hf : s.frState = .accum) (hl : s.rxbuf.length < Config.rxCap)
    (b : Byte) (rxs : List Byte) :
    Inv { s with rxbuf := s.rxbuf ++ [b], dec := decodeRx (s.rxbuf ++ [b]), rxStream := rxs } :=
  { hi with
    rxFits := by rw [List.length_append]; exact hl
    decCurrent := fun _ => rfl
    completeValid := fun hc => by
      obtain ⟨-, hno, -⟩ := hi.accumRuns hf
      exact absurd (hno.symm.trans hc) Bool.false_ne_true }

/-- The byte that completes the response is the attempt's only outcome. -/
theorem inv_completed {s : State} (hi : Inv s) (hf : s.frState = .accum) (hl : s.rxbuf.length < Config.rxCap)
    (b : Byte) (rxs : List Byte) (hc : complete (decodeRx (s.rxbuf ++ [b])) s.expectData = true) :
    Inv { s with
      rxbuf := s.rxbuf ++ [b], dec := decodeRx (s.rxbuf ++ [b]), rxStream := rxs
      frState := .done, frComplete := true } := by
  obtain ⟨-, -, htime⟩ := hi.accumRuns hf
  exact { hi with
    rxFits := by rw [List.length_append]; exact hl
    accumRuns := nofun
    doneOnce := by simp [htime]
    notBoth := by simp [htime]
    decCurrent := fun _ => rfl
    completeValid := fun _ => verdict_ok_of_complete hc }

/-- A tick that is not the last leaves time (43_framer.md R238). -/
theorem inv_tick {s : State} (hi : Inv s) (hf : s.frState = .accum) (hr : s.frRemain ≠ 1) :
    Inv { s with frRemain := s.frRemain - 1 } := by
  have hleft : s.frRemain - 1 ≠ 0 := fun h => hr (by bv_omega)
  exact { hi with accumRuns := fun _ => ⟨hleft, (hi.accumRuns hf).2⟩ }

/-- The last tick is the attempt's only outcome (43_framer.md R238). -/
theorem inv_tickLast {s : State} (hi : Inv s) (hf : s.frState = .accum) :
    Inv { s with frRemain := 0, frState := .done, frTimedout := true } := by
  obtain ⟨-, hcomp, -⟩ := hi.accumRuns hf
  exact { hi with
    accumRuns := nofun
    doneOnce := by simp [hcomp]
    notBoth := by simp [hcomp]
    decCurrent := fun _ => hi.decCurrent (by simp [hf])
    completeValid := hi.completeValid }

theorem inv_rxPush {s : State} (hi : Inv s) (hf : s.frState = .idle) (hl : s.rxbuf.length < Config.rxCap) (b : Byte) :
    Inv { s with rxbuf := s.rxbuf ++ [b] } :=
  { hi with
    rxFits := by rw [List.length_append]; exact hl
    decCurrent := fun h => absurd hf h }

theorem inv_of_effect {i : Instr} {s t : State} (hi : Inv s) (h : Effect i s t) : Inv t := by
  cases h with
  | blkReset => exact inv_blockReset s
  | txPush b => exact inv_pushTx hi b
  | txClr => exact { hi with txpFits := Nat.zero_le _, txpAscii := nofun }
  | txEncode => exact inv_encode hi
  | txPop b q hq => exact inv_pop hi hq
  | rxPush b hf hl => exact inv_rxPush hi hf hl b
  | rxClr => exact inv_clearRx hi
  | rxDecode => exact inv_latchDec hi
  | frStart => exact inv_startAttempt hi
  | rxStored b hs =>
    obtain ⟨-, hf, hl⟩ := hs
    exact inv_stored hi hf hl b _
  | rxCompleted b hs hc =>
    obtain ⟨-, hf, hl⟩ := hs
    exact inv_completed hi hf hl b _ hc
  | tick hf hr => exact inv_tick hi hf hr
  | tickLast hf => exact inv_tickLast hi hf
  | _ => exact { hi with }

theorem inv_rejectOp {s : State} (hi : Inv s) (o : RawOp) (r : Reject) : Inv (s.rejectOp o r) := by
  obtain ⟨-, e⟩ | ⟨-, e⟩ := rejectOp_cases s o r <;> rw [e] <;> exact { hi with }

/-- Settles O60: a step is nothing, an edge of reset, an operation masked or rejected, or an instruction's effect. -/
theorem invariantsKeptByEveryStep : Obligations.InvariantsKeptByEveryStep := by
  intro s t hi hstep
  have htaken (rest : List Input) : Inv { s with pending := rest } := { hi with }
  obtain ⟨-, hf⟩ | ⟨rest, -, hf⟩ | ⟨rest, -, hf⟩ | ⟨o, rest, -, -, hf⟩ | ⟨o, rest, i, -, -, -, hf⟩ |
    ⟨o, rest, r, -, -, -, hf⟩ := fetch_cases s
  · cases (step_of_fetch_idle hf).symm.trans hstep
    exact hi
  · cases (step_of_fetch_handled hf).symm.trans hstep
    exact { inv_reset with }
  · cases (step_of_fetch_handled hf).symm.trans hstep
    exact { hi with }
  · cases (step_of_fetch_handled hf).symm.trans hstep
    exact { hi with }
  · rw [step_of_fetch_run hf] at hstep
    exact inv_of_effect (htaken rest) (effect_of_exec hstep)
  · cases (step_of_fetch_handled hf).symm.trans hstep
    exact inv_rejectOp (htaken rest) o r

/-! ### The checksum registers and DEC -/

/-- Settles O24: of the effects only those excluded write CS_ACC or CS_RCVD. -/
theorem checksumUnitIsolated : Obligations.ChecksumUnitIsolated := by
  intro i s t h hclr hreset
  cases effect_of_exec h with
  | csClr => exact absurd rfl hclr
  | blkReset => exact absurd rfl hreset
  | csAdd b => exact ⟨fun hadd => absurd rfl (hadd b), fun _ => rfl⟩
  | csSetchk r => exact ⟨fun _ => rfl, fun hset => absurd rfl (hset r)⟩
  | _ => exact ⟨fun _ => rfl, fun _ => rfl⟩

/-- What a stored byte leaves in DEC, whether or not it completes the response. -/
theorem receive_dec_of_stores {i : Instr} {s : State} {b : Byte} (hs : stores i s b) :
    (s.receive b).dec = decodeRx (s.rxbuf ++ [b]) := by
  rw [receive_of_stores hs]
  obtain ⟨-, e⟩ | ⟨-, e⟩ := storeRx_cases s b <;> rw [e] <;> rfl

/-- An effect that changes DEC is one of R46's (10_state.md R46). -/
theorem dec_changed_of_effect {i : Instr} {s t : State} (h : Effect i s t) (hne : t.dec ≠ s.dec) :
    i = .blkReset ∨ ((i = .rxClr ∨ i = .frStart ∨ i = .rxDecode) ∧ s.frState ≠ .accum) ∨ ∃ b, stores i s b := by
  cases h with
  | blkReset => exact .inl rfl
  | rxClr hf => exact .inr (.inl ⟨.inl rfl, hf⟩)
  | frStart hf => exact .inr (.inl ⟨.inr (.inl rfl), hf⟩)
  | rxDecode hf => exact .inr (.inl ⟨.inr (.inr rfl), hf⟩)
  | rxStored b hs | rxCompleted b hs => exact .inr (.inr ⟨b, hs⟩)
  | _ => exact absurd rfl hne

/-- Settles O45: each named operation by its equation, and the converse by a split over the effects. -/
theorem decWrittenOnlyByItsOperations : Obligations.DecWrittenOnlyByItsOperations := by
  intro i s t h
  refine ⟨?blkReset, ?emptied, ?latched, ?stored, dec_changed_of_effect (effect_of_exec h)⟩
  case blkReset =>
    rintro rfl
    cases h
    exact decodeRx_nil.symm
  case emptied =>
    rintro ⟨rfl | rfl, hf⟩ <;> cases h
    · rw [gated_of_not_accum hf (by decide), clearRx_dec]
    · rw [gated_of_not_accum hf (by decide), startAttempt_dec]
  case latched =>
    rintro ⟨rfl, hf⟩
    cases h
    rw [gated_of_not_accum hf (by decide), latchDec_dec]
  case stored =>
    intro b hs
    rw [exec_delivered hs.1] at h
    cases h
    exact receive_dec_of_stores hs

/-! ### Sticky flags: who clears them -/

theorem herr_kept_of_effect {i : Instr} {s t : State} (h : Effect i s t) (hreset : i ≠ .blkReset) {k : Nat}
    (hk : k < 5) (hs : s.herr.getLsbD k = true) :
    t.herr.getLsbD k = true ∨ ∃ m, i = .herrW1c m ∧ m.getLsbD k = true := by
  cases h with
  | blkReset => exact absurd rfl hreset
  | herrW1c m =>
    cases hm : m.getLsbD k with
    | true => exact .inr ⟨m, rfl, hm⟩
    | false => exact .inl (by rw [clearHerr_herr, BitVec.getLsbD_and, BitVec.getLsbD_not, hs, hm]; simp [hk])
  | rxPushRefused | attemptRefused | txEncodeRefused => exact .inl (by simp [hs])
  | _ => exact .inl hs

theorem tx_flags_kept_of_effect {i : Instr} {s t : State} (h : Effect i s t) (hreset : i ≠ .blkReset)
    (hclr : i ≠ .txClr) :
    (s.txNonascii = true → t.txNonascii = true) ∧ (s.txOvf = true → t.txOvf = true) := by
  cases h with
  | blkReset => exact absurd rfl hreset
  | txClr => exact absurd rfl hclr
  | txPush b => exact ⟨fun hs => by simp [hs], fun hs => by simp [hs]⟩
  | _ => exact ⟨id, id⟩

theorem fr_flags_kept_of_effect {i : Instr} {s t : State} (h : Effect i s t) (hreset : i ≠ .blkReset)
    (hstart : i ≠ .frStart) (hclr : i ≠ .rxClr) :
    (s.frComplete = true → t.frComplete = true) ∧ (s.frTimedout = true → t.frTimedout = true) ∧
    (s.frOvf = true → t.frOvf = true) ∧ (s.frStray = true → t.frStray = true) := by
  cases h with
  | blkReset => exact absurd rfl hreset
  | frStart => exact absurd rfl hstart
  | rxClr => exact absurd rfl hclr
  | rxCompleted => exact ⟨fun _ => rfl, id, id, id⟩
  | tickLast => exact ⟨id, fun _ => rfl, id, id⟩
  | rxPushFull | rxDropped => exact ⟨id, id, fun _ => rfl, id⟩
  | rxStray => exact ⟨id, id, id, fun _ => rfl⟩
  | _ => exact ⟨id, id, id, id⟩

/-- Settles O57: the flags of HERR, of the serializer and of the framer, each over the effects. -/
theorem stickyFlagsClearedOnlyByName : Obligations.StickyFlagsClearedOnlyByName := by
  intro i s t h hreset
  have heff := effect_of_exec h
  exact ⟨fun _ => herr_kept_of_effect heff hreset, tx_flags_kept_of_effect heff hreset,
    fr_flags_kept_of_effect heff hreset⟩

/-! ### Sticky flags: who sets them -/

/-- The event of an instruction that R23 lists for a host error; BADCMD and BADACC have none (10_state.md R23). -/
def Raises (i : Instr) (s : State) : HostErr → Prop
  | .badcmd | .badacc => False
  | .badstate =>
    (s.frState = .accum ∧
      (i = .rxClr ∨ i = .rxDecode ∨ i = .frStart ∨ (∃ e, i = .frSetctrl e) ∨ (∃ v, i = .frSettmo v))) ∨
    (s.frState ≠ .idle ∧ ∃ b, i = .rxPush b)
  | .txbusy => i = .txEncode ∧ s.txq ≠ []
  | .txbad => i = .txEncode ∧ (s.txNonascii = true ∨ s.txOvf = true)

theorem herrMask_and_of_ne {e e' : HostErr} (h : e ≠ e') : herrMask e &&& herrMask e' = 0 := by
  revert h
  cases e <;> cases e' <;> decide

/-- Each bit of HERR belongs to one flag (10_state.md R28). -/
theorem hostErr_unique_of_bit {e e' : HostErr} {k : Nat} (h : (herrMask e).getLsbD k = true)
    (h' : (herrMask e').getLsbD k = true) : e = e' := by
  by_contra hne
  have hand : (herrMask e &&& herrMask e').getLsbD k = true := by rw [BitVec.getLsbD_and, h, h']; rfl
  rw [herrMask_and_of_ne hne] at hand
  simp at hand

/-- Where a flag is recorded under a condition, the flag's bit was 1 before or the condition holds; another flag's bit
is the same. -/
theorem bit_of_recorded {h : BitVec 5} {c : Bool} {e e' : HostErr} {k : Nat} (hk : (herrMask e).getLsbD k = true)
    (ht : (h ||| (if c then herrMask e' else 0)).getLsbD k = true) : h.getLsbD k = true ∨ (c = true ∧ e = e') := by
  rw [BitVec.getLsbD_or, Bool.or_eq_true] at ht
  refine ht.imp_right (fun hbit => ?_)
  cases c with
  | true => exact ⟨rfl, hostErr_unique_of_bit hk hbit⟩
  | false => simp at hbit

theorem refused_bit {s : State} {e e' : HostErr} {k : Nat} (hk : (herrMask e).getLsbD k = true)
    (ht : (s.refuse e').herr.getLsbD k = true) : s.herr.getLsbD k = true ∨ e = e' :=
  (bit_of_recorded (c := true) hk ht).imp_right And.right

/-- A flag of HERR that is set was set before or its event occurred. -/
theorem herr_set_of_effect {i : Instr} {s t : State} (h : Effect i s t) {e : HostErr} {k : Nat}
    (hk : (herrMask e).getLsbD k = true) (ht : t.herr.getLsbD k = true) :
    s.herr.getLsbD k = true ∨ Raises i s e := by
  cases h with
  | blkReset => simp [State.reset] at ht
  | herrW1c m =>
    rw [clearHerr_herr, BitVec.getLsbD_and, Bool.and_eq_true] at ht
    exact .inl ht.1
  | rxPushRefused b hf =>
    obtain hs | rfl := refused_bit hk ht
    · exact .inl hs
    · exact .inr (.inr ⟨hf, b, rfl⟩)
  | attemptRefused hf hi =>
    obtain hs | rfl := refused_bit hk ht
    · exact .inl hs
    · exact .inr (.inl ⟨hf, hi⟩)
  | txEncodeRefused =>
    obtain hbad | ⟨hbusy, rfl⟩ := bit_of_recorded hk ht
    · obtain hs | ⟨hbad, rfl⟩ := bit_of_recorded hk hbad
      · exact .inl hs
      · exact .inr ⟨rfl, (Bool.or_eq_true _ _).mp hbad⟩
    · exact .inr ⟨rfl, by simpa [txBusy] using hbusy⟩
  | _ => exact .inl ht

theorem marker_iff (b : Byte) : marker b = true ↔ 128 ≤ b.toNat := by
  have hmsb : marker b = b.msb := rfl
  rw [hmsb, BitVec.msb_eq_decide, decide_eq_true_iff]

theorem txNonascii_set_of_effect {i : Instr} {s t : State} (h : Effect i s t) (ht : t.txNonascii = true) :
    s.txNonascii = true ∨ ∃ b, i = .txPush b ∧ 128 ≤ b.toNat := by
  cases h with
  | blkReset | txClr => cases ht
  | txPush b => exact ((Bool.or_eq_true _ _).mp ht).imp_right (fun hm => ⟨b, rfl, (marker_iff b).mp hm⟩)
  | _ => exact .inl ht

theorem txOvf_set_of_effect {i : Instr} {s t : State} (h : Effect i s t) (ht : t.txOvf = true) :
    s.txOvf = true ∨ ∃ b, i = .txPush b ∧ s.txp.length = Config.txCap := by
  cases h with
  | blkReset | txClr => cases ht
  | txPush b => exact ((Bool.or_eq_true _ _).mp ht).imp_right (fun hl => ⟨b, rfl, beq_iff_eq.mp hl⟩)
  | _ => exact .inl ht

theorem frComplete_set_of_effect {i : Instr} {s t : State} (h : Effect i s t) (ht : t.frComplete = true) :
    s.frComplete = true ∨ ∃ b, stores i s b ∧ complete (decodeRx (s.rxbuf ++ [b])) s.expectData = true := by
  cases h with
  | blkReset | rxClr | frStart => cases ht
  | rxCompleted b hs hc => exact .inr ⟨b, hs, hc⟩
  | _ => exact .inl ht

theorem frTimedout_set_of_effect {i : Instr} {s t : State} (h : Effect i s t) (ht : t.frTimedout = true) :
    s.frTimedout = true ∨ (i = .tick ∧ s.frState = .accum ∧ s.frRemain = 1) ∨
      (i = .frStart ∧ s.frState ≠ .accum ∧ s.frTimeout = 0) := by
  cases h with
  | blkReset | rxClr => cases ht
  | frStart hf => exact .inr (.inr ⟨rfl, hf, of_decide_eq_true ht⟩)
  | tickLast hf hr => exact .inr (.inl ⟨rfl, hf, hr⟩)
  | _ => exact .inl ht

theorem frOvf_set_of_effect {i : Instr} {s t : State} (h : Effect i s t) (ht : t.frOvf = true) :
    s.frOvf = true ∨ (Config.rxCap ≤ s.rxbuf.length ∧
      ((s.frState = .idle ∧ ∃ b, i = .rxPush b) ∨ (s.frState = .accum ∧ ∃ b, delivered i = some b))) := by
  cases h with
  | blkReset | rxClr | frStart => cases ht
  | rxPushFull b hf hl => exact .inr ⟨hl, .inl ⟨hf, b, rfl⟩⟩
  | rxDropped b hd hf hl => exact .inr ⟨hl, .inr ⟨hf, b, hd⟩⟩
  | _ => exact .inl ht

theorem frStray_set_of_effect {i : Instr} {s t : State} (h : Effect i s t) (ht : t.frStray = true) :
    s.frStray = true ∨ (s.frState ≠ .accum ∧ ∃ b, delivered i = some b) := by
  cases h with
  | blkReset | rxClr | frStart => cases ht
  | rxStray b hd hf => exact .inr ⟨hf, b, hd⟩
  | _ => exact .inl ht

/-- Settles O58: the five bits of HERR by the flag each belongs to, the other flags each over the effects. -/
theorem flagsSetOnlyByTheirEvents : Obligations.FlagsSetOnlyByTheirEvents := by
  intro i s t h
  have heff := effect_of_exec h
  exact ⟨fun ht => (herr_set_of_effect heff (e := .badcmd) (by decide) ht).resolve_right id,
    fun ht => (herr_set_of_effect heff (e := .badacc) (by decide) ht).resolve_right id,
    herr_set_of_effect heff (e := .badstate) (by decide), herr_set_of_effect heff (e := .txbusy) (by decide),
    herr_set_of_effect heff (e := .txbad) (by decide), txNonascii_set_of_effect heff, txOvf_set_of_effect heff,
    frComplete_set_of_effect heff, frTimedout_set_of_effect heff, frOvf_set_of_effect heff,
    frStray_set_of_effect heff⟩

end Sys2Proof.Proofs
end

section
/-! PROOFS. The decoder over the host register space (20_memory.md R74 to R81): where an offset lies, what a location
makes of an access, and that decoding undoes encoding. -/

namespace Sys2Proof.Proofs

open Sys2Proof Sys2Proof.Machine

/-! ### Where an offset lies -/

theorem aligned_iff (off : Offset) : aligned off = true ↔ off.toNat % 4 = 0 := by
  simp [aligned, ← BitVec.toNat_inj]

/-- The two top bits of an offset select one of four pages of 1 KiB. -/
theorem page_eq_iff (off : Offset) (n : BitVec 2) : off.extractLsb' 10 2 = n ↔ off.toNat / 1024 = n.toNat := by
  have hpage : off.toNat / 1024 % 4 = off.toNat / 1024 := Nat.mod_eq_of_lt (Nat.div_lt_of_lt_mul off.isLt)
  rw [← BitVec.toNat_inj, BitVec.extractLsb'_toNat, Nat.shiftRight_eq_div_pow]
  exact iff_of_eq (congrArg (· = n.toNat) hpage)

/-- The index of a window entry, from its offset (10_state.md R47, R48). -/
theorem windowIndex_toNat (off : Offset) : (off.extractLsb' 2 8).toNat = off.toNat / 4 % 256 := by
  rw [BitVec.extractLsb'_toNat, Nat.shiftRight_eq_div_pow]

theorem locate_rxb {off : Offset} {k : Nat} (hk : k < 256) (h : off.toNat = 0x400 + 4 * k) :
    locate off = some (.rxb k) := by
  have hpage : off.toNat / 1024 = 1 := by omega
  have hidx : off.toNat / 4 % 256 = k := by omega
  rw [locate, if_pos ((page_eq_iff off 1#2).mpr hpage), windowIndex_toNat, hidx]

theorem locate_txp {off : Offset} {k : Nat} (hk : k < 256) (h : off.toNat = 0x800 + 4 * k) :
    locate off = some (.txp k) := by
  have hpage : off.extractLsb' 10 2 = 2#2 := (page_eq_iff off 2#2).mpr (show off.toNat / 1024 = 2 by omega)
  have hidx : off.toNat / 4 % 256 = k := by omega
  rw [locate, if_neg (by rw [hpage]; decide), if_pos hpage, windowIndex_toNat, hidx]

theorem locate_outside_windows {off : Offset} (h : off.toNat < 0x400 ∨ 0xC00 ≤ off.toNat) :
    locate off = regMap.lookup off := by
  have hrxb : off.toNat / 1024 ≠ 1 := by omega
  have htxp : off.toNat / 1024 ≠ 2 := by omega
  rw [locate, if_neg (mt (page_eq_iff off 1#2).mp hrxb), if_neg (mt (page_eq_iff off 2#2).mp htxp)]

theorem mem_of_lookup_eq_some {α β : Type} [BEq α] [LawfulBEq α] {l : List (α × β)} {a : α} {b : β}
    (h : l.lookup a = some b) : (a, b) ∈ l := by
  obtain ⟨l₁, l₂, rfl, -⟩ := List.lookup_eq_some_iff.mp h
  exact List.mem_append_right l₁ List.mem_cons_self

/-- The aligned offsets up to the last register that are no row of R80 are among its gaps. -/
theorem unmapped_of_register_lookup_none : ∀ n : Fin 25,
    regMap.lookup (BitVec.ofNat 12 (4 * n)) = none → UnmappedOffset (BitVec.ofNat 12 (4 * n)) := by
  unfold UnmappedOffset
  decide

theorem unmapped_of_lookup_none {off : Offset} (ha : off.toNat % 4 = 0)
    (hout : off.toNat < 0x400 ∨ 0xC00 ≤ off.toNat) (h : regMap.lookup off = none) : UnmappedOffset off := by
  by_cases hreg : off.toNat < 0x064
  · have hoff : off = BitVec.ofNat 12 (4 * (off.toNat / 4)) := by
      rw [show 4 * (off.toNat / 4) = off.toNat by omega, BitVec.ofNat_toNat, BitVec.setWidth_eq]
    rw [hoff] at h ⊢
    exact unmapped_of_register_lookup_none ⟨off.toNat / 4, by omega⟩ h
  · simp only [UnmappedOffset]
    omega

/-- Where an aligned offset lies (20_memory.md R80). -/
theorem locate_cases {off : Offset} (ha : off.toNat % 4 = 0) :
    (∃ k < 256, off.toNat = 0x400 + 4 * k ∧ locate off = some (.rxb k)) ∨
    (∃ k < 256, off.toNat = 0x800 + 4 * k ∧ locate off = some (.txp k)) ∨
    (∃ l, (off, l) ∈ regMap ∧ locate off = some l) ∨
    (UnmappedOffset off ∧ locate off = none) := by
  by_cases hwin : 0x400 ≤ off.toNat ∧ off.toNat < 0xC00
  · by_cases hrx : off.toNat < 0x800
    · have hk : (off.toNat - 0x400) / 4 < 256 := by omega
      have hoff : off.toNat = 0x400 + 4 * ((off.toNat - 0x400) / 4) := by omega
      exact .inl ⟨_, hk, hoff, locate_rxb hk hoff⟩
    · have hk : (off.toNat - 0x800) / 4 < 256 := by omega
      have hoff : off.toNat = 0x800 + 4 * ((off.toNat - 0x800) / 4) := by omega
      exact .inr (.inl ⟨_, hk, hoff, locate_txp hk hoff⟩)
  · have hout : off.toNat < 0x400 ∨ 0xC00 ≤ off.toNat := by omega
    rw [locate_outside_windows hout]
    cases hl : regMap.lookup off with
    | some l => exact .inr (.inr (.inl ⟨l, mem_of_lookup_eq_some hl, rfl⟩))
    | none => exact .inr (.inr (.inr ⟨unmapped_of_lookup_none ha hout hl, rfl⟩))

/-! ### The located offsets against the lists of R77 and R80 -/

/-- The locations R77 names read-only; `writeOp_cases` ties them to the rejections of `writeOp`. -/
def readOnlyLoc : Loc → Bool
  | .cap | .csSum | .txStat | .frRemain | .frStat | .decStat | .decEcho | .decEcho2 | .decData | .decData2
  | .rxb _ | .txp _ => true
  | .cmd | .herr | .csData | .csCheck | .txAddr | .txPush | .rxPush | .frCtrl | .frTimeout => false

/-- The rows of R80's register table against the lists of R77 and R80. -/
theorem register_offsets : ∀ p ∈ regMap,
    ¬ UnmappedOffset p.1 ∧ (readOnlyLoc p.2 = true ↔ ReadOnlyOffset p.1) ∧ (p.2 = .cmd ↔ p.1 = 0x004#12) := by
  unfold UnmappedOffset ReadOnlyOffset
  decide

/-- R80's list of unmapped offsets, as numbers. -/
theorem unmappedOffset_iff (off : Offset) : UnmappedOffset off ↔
    (off.toNat = 0x00C ∨ off.toNat = 0x01C ∨ off.toNat = 0x02C) ∨ (0x044 ≤ off.toNat ∧ off.toNat ≤ 0x04C) ∨
    (0x064 ≤ off.toNat ∧ off.toNat ≤ 0x3FC) ∨ 0xC00 ≤ off.toNat := by
  simp [UnmappedOffset, ← BitVec.toNat_inj]

theorem not_unmapped_of_readOnly {off : Offset} (h : ReadOnlyOffset off) : ¬ UnmappedOffset off := by
  rw [unmappedOffset_iff]
  simp only [ReadOnlyOffset, List.mem_cons, List.not_mem_nil, or_false, ← BitVec.toNat_inj, BitVec.toNat_ofNat] at h
  omega

theorem window_offset {off : Offset} (h : 0x400 ≤ off.toNat ∧ off.toNat ≤ 0xBFC) :
    ¬ UnmappedOffset off ∧ ReadOnlyOffset off ∧ off ≠ 0x004#12 := by
  have hro : ReadOnlyOffset off := .inr h
  refine ⟨not_unmapped_of_readOnly hro, hro, ?_⟩
  rintro rfl
  revert h
  decide

/-- A located offset is mapped, and it is on R77's list or the offset of CMD exactly as its location is. -/
theorem located_offset {off : Offset} {l : Loc} (ha : off.toNat % 4 = 0) (h : locate off = some l) :
    ¬ UnmappedOffset off ∧ (readOnlyLoc l = true ↔ ReadOnlyOffset off) ∧ (l = .cmd ↔ off = 0x004#12) := by
  obtain ⟨k, hk, hoff, e⟩ | ⟨k, hk, hoff, e⟩ | ⟨l', hmem, e⟩ | ⟨-, e⟩ := locate_cases ha <;> cases e.symm.trans h
  case inr.inr.inl => exact register_offsets _ hmem
  all_goals
    obtain ⟨hmapped, hro, hne⟩ := window_offset (off := off) (by omega)
    exact ⟨hmapped, iff_of_true rfl hro, iff_of_false nofun hne⟩

theorem locate_eq_none_iff {off : Offset} (ha : off.toNat % 4 = 0) : locate off = none ↔ UnmappedOffset off := by
  constructor
  · intro h
    obtain ⟨_, _, _, e⟩ | ⟨_, _, _, e⟩ | ⟨_, _, e⟩ | ⟨hun, -⟩ := locate_cases ha
    case inr.inr.inr => exact hun
    all_goals cases e.symm.trans h
  · intro hun
    by_contra hne
    obtain ⟨l, hl⟩ := Option.ne_none_iff_exists'.mp hne
    exact (located_offset ha hl).1 hun

/-! ### What a write and a read come to -/

/-- Command dispatch over the codes of 30_encoding.md R120. -/
theorem decodeCommand_cases (v : Word) :
    (v.toNat % 256 ∈ [0x00, 0x01, 0x10, 0x11, 0x20, 0x21, 0x22, 0xF0] ∧
      ∃ i, i.wellFormed = true ∧ decodeCommand v = .ok i) ∨
    (v.toNat % 256 ∉ [0x00, 0x01, 0x10, 0x11, 0x20, 0x21, 0x22, 0xF0] ∧
      decodeCommand v = .error .reservedCommand) := by
  have hcode : (byteOperand v).toNat = v.toNat % 256 := by simp [byteOperand]
  have hcodes : [0x00, 0x01, 0x10, 0x11, 0x20, 0x21, 0x22, 0xF0] = commandCodes.map (·.1.toNat) := rfl
  rw [hcodes, ← hcode, List.mem_map, decodeCommand]
  cases hl : commandCodes.lookup (byteOperand v) with
  | some i =>
    have hmem := mem_of_lookup_eq_some hl
    have hwf : ∀ p ∈ commandCodes, p.2.wellFormed = true := by decide
    exact .inl ⟨⟨_, hmem, rfl⟩, i, hwf _ hmem, rfl⟩
  | none =>
    refine .inr ⟨?_, rfl⟩
    rintro ⟨p, hp, he⟩
    have hne := List.lookup_eq_none_iff.mp hl p hp
    rw [BitVec.eq_of_toNat_eq he] at hne
    simp at hne

theorem writeOp_cases (l : Loc) (v : Word) :
    (l = .cmd ∧ readOnlyLoc l = false ∧ writeOp l v = decodeCommand v) ∨
    (l ≠ .cmd ∧ readOnlyLoc l = true ∧ writeOp l v = .error .readOnly) ∨
    (l ≠ .cmd ∧ readOnlyLoc l = false ∧ ∃ i, i.wellFormed = true ∧ writeOp l v = .ok i) := by
  cases l with
  | cmd => exact .inl ⟨rfl, rfl, rfl⟩
  | cap | csSum | txStat | frRemain | frStat | decStat | decEcho | decEcho2 | decData | decData2 | rxb | txp =>
    exact .inr (.inl ⟨nofun, rfl, rfl⟩)
  | herr | csData | csCheck | txAddr | txPush | rxPush | frCtrl | frTimeout =>
    exact .inr (.inr ⟨nofun, rfl, _, rfl, rfl⟩)

theorem decode_misaligned {off : Offset} (h : off.toNat % 4 ≠ 0) :
    (∀ v, decode (.hostWrite off v) = .error .misaligned) ∧ decode (.hostRead off) = .error .misaligned := by
  have ha : aligned off = false := Bool.eq_false_iff.mpr (mt (aligned_iff off).mp h)
  exact ⟨fun _ => if_pos ha, if_pos ha⟩

theorem decode_unmapped {off : Offset} (ha : off.toNat % 4 = 0) (h : UnmappedOffset off) :
    (∀ v, decode (.hostWrite off v) = .error .unmapped) ∧ decode (.hostRead off) = .error .unmapped := by
  have ha' : aligned off = true := (aligned_iff off).mpr ha
  have hl : locate off = none := (locate_eq_none_iff ha).mpr h
  simp [decode, decodeWrite, decodeRead, ha', hl]

theorem decode_located {off : Offset} {l : Loc} (ha : off.toNat % 4 = 0) (h : locate off = some l) :
    (∀ v, decode (.hostWrite off v) = writeOp l v) ∧ decode (.hostRead off) = .ok (readOp l) := by
  have ha' : aligned off = true := (aligned_iff off).mpr ha
  simp [decode, decodeWrite, decodeRead, ha', h]

/-- Settles O3: a misaligned, an unmapped and a located offset each have their answer. -/
theorem readsRejectedExactlyOffTheMap : Obligations.ReadsRejectedExactlyOffTheMap := by
  intro off
  by_cases ha : off.toNat % 4 = 0
  · cases hl : locate off with
    | none =>
      have hun := (locate_eq_none_iff ha).mp hl
      simp [(decode_unmapped ha hun).2, ha, hun]
    | some l =>
      obtain ⟨hmapped, -, -⟩ := located_offset ha hl
      simp [(decode_located ha hl).2, ha, hmapped]
  · simp [(decode_misaligned ha).2, ha]

/-- Settles O4: a misaligned and an unmapped offset as for a read, and a located one by what its location makes of a
write. -/
theorem writesRejectedExactlyWhereNotWritable : Obligations.WritesRejectedExactlyWhereNotWritable := by
  intro off v
  by_cases ha : off.toNat % 4 = 0
  · cases hl : locate off with
    | none =>
      have hun := (locate_eq_none_iff ha).mp hl
      have hro : ¬ ReadOnlyOffset off := fun h => not_unmapped_of_readOnly h hun
      have hcmd : off ≠ 0x004#12 := by
        rintro rfl
        rw [unmappedOffset_iff] at hun
        simp at hun
      simp [(decode_unmapped ha hun).1, ha, hun, hro, hcmd]
    | some l =>
      obtain ⟨hmapped, hro, hcmd⟩ := located_offset ha hl
      rw [(decode_located ha hl).1, ← hro, ← hcmd]
      obtain ⟨hl, hw, e⟩ | ⟨hl, hw, e⟩ | ⟨hl, hw, i, -, e⟩ := writeOp_cases l v <;> rw [e]
      · obtain ⟨hcode, i, -, e'⟩ | ⟨hcode, e'⟩ := decodeCommand_cases v <;> rw [e']
        · simp [ha, hmapped, hw, hcode]
        · rw [hl] at hw
          simp [ha, hmapped, hw, hl, hcode]
      · simp [ha, hmapped, hw, hl]
      · simp [ha, hmapped, hw, hl]
  · have hcmd : off ≠ 0x004#12 := by
      rintro rfl
      exact ha rfl
    simp [(decode_misaligned ha).1, ha, hcmd]

/-! ### Decoding undoes encoding -/

/-- The low bits of a zero-extended value are the value. -/
theorem extractLsb'_setWidth {w w' : Nat} (h : w ≤ w') (x : BitVec w) : (x.setWidth w').extractLsb' 0 w = x := by
  rw [← BitVec.setWidth_eq_extractLsb' h, BitVec.setWidth_setWidth_of_le _ h, BitVec.setWidth_eq]

@[simp] theorem byteOperand_setWidth (b : Byte) : byteOperand (b.setWidth 32) = b :=
  extractLsb'_setWidth (by decide) b

@[simp] theorem addrOperand_setWidth (a : BitVec 7) : addrOperand (a.setWidth 32) = a :=
  extractLsb'_setWidth (by decide) a

@[simp] theorem maskOperand_setWidth (m : BitVec 5) : maskOperand (m.setWidth 32) = m :=
  extractLsb'_setWidth (by decide) m

@[simp] theorem flagOperand_bit (e : Bool) : flagOperand ((bit e).setWidth 32) = e := by
  simp [flagOperand, bit]

@[simp] theorem marker_wireAddr (a : BitVec 7) : marker (wireAddr a) = true := by
  simp [marker, wireAddr]

@[simp] theorem low7_wireAddr (a : BitVec 7) : low7 (wireAddr a) = a := by
  have hmarker : (0x80#8).extractLsb' 0 7 = 0 := rfl
  rw [low7, wireAddr, BitVec.extractLsb'_or, hmarker, extractLsb'_setWidth (by decide)]
  exact BitVec.zero_or

@[simp] theorem marker_wireLow (x : BitVec 7) : marker (wireLow x) = false := by
  simp [marker, wireLow]

@[simp] theorem low7_wireLow (x : BitVec 7) : low7 (wireLow x) = x :=
  extractLsb'_setWidth (by decide) x

theorem windowOffset_aligned {base k : Nat} (hb : base = 0x400 ∨ base = 0x800) (hk : k < 256) :
    (windowOffset base k).toNat % 4 = 0 := by
  rw [Laws.windowOffset_toNat base k (by omega) hk]
  omega

/-- A well-formed instruction is read back from its encoding: each operand from the bits it was put in, each window
index from the offset of its entry (30_encoding.md R108, R110). -/
theorem decode_encode {i : Instr} (h : i.wellFormed = true) : decode (encode i) = .ok i := by
  cases i with
  | rdRxb k =>
    have hk : k < 256 := of_decide_eq_true h
    have hl := locate_rxb hk (Laws.windowOffset_toNat 0x400 k (by decide) hk)
    exact (decode_located (windowOffset_aligned (.inl rfl) hk) hl).2
  | rdTxp k =>
    have hk : k < 256 := of_decide_eq_true h
    have hl := locate_txp hk (Laws.windowOffset_toNat 0x800 k (by decide) hk)
    exact (decode_located (windowOffset_aligned (.inr rfl) hk) hl).2
  | herrW1c m => exact congrArg (fun m => Except.ok (Instr.herrW1c m)) (maskOperand_setWidth m)
  | csAdd b => exact congrArg (fun b => Except.ok (Instr.csAdd b)) (byteOperand_setWidth b)
  | csSetchk r => exact congrArg (fun r => Except.ok (Instr.csSetchk r)) (byteOperand_setWidth r)
  | txSetaddr a => exact congrArg (fun a => Except.ok (Instr.txSetaddr a)) (addrOperand_setWidth a)
  | txPush b => exact congrArg (fun b => Except.ok (Instr.txPush b)) (byteOperand_setWidth b)
  | rxPush b => exact congrArg (fun b => Except.ok (Instr.rxPush b)) (byteOperand_setWidth b)
  | frSetctrl e => exact congrArg (fun e => Except.ok (Instr.frSetctrl e)) (flagOperand_bit e)
  | addrByte | csumByte | payloadByte => simp [encode, decode, decodeWire]
  | _ => rfl

theorem readOp_wellFormed {off : Offset} {l : Loc} (ha : off.toNat % 4 = 0) (h : locate off = some l) :
    (readOp l).wellFormed = true := by
  obtain ⟨k, hk, -, e⟩ | ⟨k, hk, -, e⟩ | ⟨l', hmem, e⟩ | ⟨-, e⟩ := locate_cases ha <;> cases e.symm.trans h
  · exact decide_eq_true hk
  · exact decide_eq_true hk
  · have hrows : ∀ p ∈ regMap, (readOp p.2).wellFormed = true := by decide
    exact hrows _ hmem

theorem writeOp_wellFormed {l : Loc} {v : Word} {i : Instr} (h : writeOp l v = .ok i) : i.wellFormed = true := by
  obtain ⟨-, -, e⟩ | ⟨-, -, e⟩ | ⟨-, -, j, hj, e⟩ := writeOp_cases l v <;> rw [e] at h
  · obtain ⟨-, j, hj, e'⟩ | ⟨-, e'⟩ := decodeCommand_cases v <;> cases e'.symm.trans h
    exact hj
  · cases h
  · cases h
    exact hj

theorem decodeWire_wellFormed (c : WireClass) (b : Byte) : (decodeWire c b).wellFormed = true := by
  unfold decodeWire
  split <;> rfl

/-- An access that decodes is one of a location. -/
theorem located_of_decode_ok {off : Offset} {i : Instr}
    (h : (∃ v, decode (.hostWrite off v) = .ok i) ∨ decode (.hostRead off) = .ok i) :
    off.toNat % 4 = 0 ∧ ∃ l, locate off = some l := by
  by_cases ha : off.toNat % 4 = 0
  · refine ⟨ha, ?_⟩
    cases hl : locate off with
    | some l => exact ⟨l, rfl⟩
    | none =>
      obtain ⟨hw, hr⟩ := decode_unmapped ha ((locate_eq_none_iff ha).mp hl)
      simp [hw, hr] at h
  · obtain ⟨hw, hr⟩ := decode_misaligned ha
    simp [hw, hr] at h

theorem wellFormed_of_decode {o : RawOp} {i : Instr} (h : decode o = .ok i) : i.wellFormed = true := by
  cases o with
  | hostWrite off v =>
    obtain ⟨ha, l, hl⟩ := located_of_decode_ok (.inl ⟨v, h⟩)
    exact writeOp_wellFormed (((decode_located ha hl).1 v).symm.trans h)
  | hostRead off =>
    obtain ⟨ha, l, hl⟩ := located_of_decode_ok (.inr h)
    cases (decode_located ha hl).2.symm.trans h
    exact readOp_wellFormed ha hl
  | wire c b =>
    cases h
    exact decodeWire_wellFormed c b
  | rxByte | tick | txPop =>
    cases h
    rfl

/-- Settles O2: what the decoder answers is well-formed, and every well-formed instruction is read back. -/
theorem decodedIsWellFormed : Obligations.DecodedIsWellFormed := by
  intro o i h
  have hwf := wellFormed_of_decode h
  exact ⟨hwf, decode_encode hwf⟩

/-- Settles O6: each word is the encoding of its instruction, or has further bits that the operand leaves out. -/
theorem writtenOutWordsDecode : Obligations.WrittenOutWordsDecode :=
  ⟨rfl, rfl, rfl, rfl, rfl, rfl, rfl, rfl, rfl, rfl⟩

end Sys2Proof.Proofs
end

section
/-! PROOFS. Steps over the pending inputs and the operations of a clock cycle (20_memory.md R75 to R79, R83 to R85):
what a step makes of a decoded and of a rejected operation, and that a run over presented operations is the run of
their instructions. -/

namespace Sys2Proof.Proofs

open Sys2Proof Sys2Proof.Machine

/-! ### One step over an operation -/

theorem step_of_decoded {s : State} {o : RawOp} {rest : List Input} {i : Instr} (hp : s.pending = .op o :: rest)
    (hr : s.resetLine = false) (hd : decode o = .ok i) : step s = exec i { s with pending := rest } := by
  apply step_of_fetch_run
  simp [fetch, hp, hr, State.accept, hd]

theorem step_of_rejected {s : State} {o : RawOp} {rest : List Input} {r : Reject} (hp : s.pending = .op o :: rest)
    (hr : s.resetLine = false) (hd : decode o = .error r) :
    step s = .next ({ s with pending := rest }.rejectOp o r) := by
  apply step_of_fetch_handled
  simp [fetch, hp, hr, State.accept, hd]

/-- Settles O7: the fetch of a decoded operation is its run. -/
theorem stepRunsTheDecodedInstruction : Obligations.StepRunsTheDecodedInstruction :=
  fun _ _ _ _ => step_of_decoded

/-! ### Bad accesses -/

theorem bad_write_rejected {off : Offset} (v : Word)
    (h : off.toNat % 4 ≠ 0 ∨ UnmappedOffset off ∨ ReadOnlyOffset off) :
    ∃ r, decode (.hostWrite off v) = .error r ∧ rejectFlag r = .badacc := by
  obtain ⟨hmis, hunm, hro, -⟩ := writesRejectedExactlyWhereNotWritable off v
  by_cases ha : off.toNat % 4 = 0
  · obtain hne | hun | hr := h
    · exact absurd ha hne
    · exact ⟨_, hunm.mpr ⟨ha, hun⟩, rfl⟩
    · exact ⟨_, hro.mpr ⟨ha, hr⟩, rfl⟩
  · exact ⟨_, hmis.mpr ha, rfl⟩

theorem bad_read_rejected {off : Offset} (h : off.toNat % 4 ≠ 0 ∨ UnmappedOffset off) :
    ∃ r, decode (.hostRead off) = .error r ∧ rejectFlag r = .badacc := by
  obtain ⟨hmis, hunm, -⟩ := readsRejectedExactlyOffTheMap off
  by_cases ha : off.toNat % 4 = 0
  · exact ⟨_, hunm.mpr ⟨ha, h.resolve_left (not_not.mpr ha)⟩, rfl⟩
  · exact ⟨_, hmis.mpr ha, rfl⟩

/-- Settles O9: a bad access is rejected with BADACC, whichever of the three rules it breaks. -/
theorem badAccessesSetOnlyBadacc : Obligations.BadAccessesSetOnlyBadacc := by
  intro s off rest hr
  refine ⟨fun v hp hbad => ?write, fun hp hbad => ?read⟩
  case write =>
    obtain ⟨r, hd, hflag⟩ := bad_write_rejected v hbad
    rw [step_of_rejected hp hr hd, State.rejectOp, hflag]
    rfl
  case read =>
    obtain ⟨r, hd, hflag⟩ := bad_read_rejected hbad
    rw [step_of_rejected hp hr hd, State.rejectOp, hflag]
    rfl

/-! ### No operation reads the pending inputs -/

/-- The state with other inputs still to come. -/
def withPending (p : List Input) (s : State) : State := { s with pending := p }

theorem withPending_eq {s : State} {p : List Input} (h : s.pending = p) : withPending p s = s := by
  subst h
  rfl

theorem encodeTx_withPending (p : List Input) (s : State) :
    (withPending p s).encodeTx = withPending p s.encodeTx := by
  unfold State.encodeTx
  rw [apply_ite (withPending p)]
  simp only [refuseIf_frame]
  rfl

theorem popTx_withPending (p : List Input) (s : State) : (withPending p s).popTx = withPending p s.popTx := by
  have hq : (withPending p s).txq = s.txq := rfl
  unfold State.popTx
  rw [hq]
  cases s.txq <;> rfl

theorem pushRx_withPending (p : List Input) (s : State) (b : Byte) :
    (withPending p s).pushRx b = withPending p (s.pushRx b) := by
  unfold State.pushRx
  rw [apply_ite (withPending p)]
  rfl

theorem storeRx_withPending (p : List Input) (s : State) (b : Byte) :
    (withPending p s).storeRx b = withPending p (s.storeRx b) := by
  unfold State.storeRx
  rw [apply_ite (withPending p)]
  rfl

theorem acceptRx_withPending (p : List Input) (s : State) (b : Byte) :
    (withPending p s).acceptRx b = withPending p (s.acceptRx b) := by
  have hf : (withPending p s).frState = s.frState := rfl
  unfold State.acceptRx
  rw [hf]
  cases s.frState with
  | idle | done => rfl
  | accum =>
    simp only [storeRx_withPending]
    rw [apply_ite (withPending p)]
    rfl

theorem receive_withPending (p : List Input) (s : State) (b : Byte) :
    (withPending p s).receive b = withPending p (s.receive b) := by
  rw [receive_eq, acceptRx_withPending]
  rfl

theorem tickDown_withPending (p : List Input) (s : State) :
    (withPending p s).tickDown = withPending p s.tickDown := by
  have hf : (withPending p s).frState = s.frState := rfl
  unfold State.tickDown
  rw [hf]
  cases s.frState with
  | idle | done => rfl
  | accum =>
    simp only
    rw [apply_ite (withPending p)]
    rfl

theorem gated_withPending (p : List Input) (s : State) (g : Gated) (f : State → State)
    (hf : f (withPending p s) = withPending p (f s)) :
    (withPending p s).gated g f = withPending p (s.gated g f) := by
  unfold State.gated
  rw [apply_ite (withPending p), hf]
  rfl

/-- An instruction does the same whatever is still to come (20_memory.md R84). -/
theorem exec_ignores_pending (p : List Input) (i : Instr) (s : State) :
    ∃ t, exec i s = .next t ∧ exec i (withPending p s) = .next (withPending p t) := by
  cases i with
  | txEncode => exact ⟨_, rfl, congrArg _ (encodeTx_withPending p s)⟩
  | txPop => exact ⟨_, rfl, congrArg _ (popTx_withPending p s)⟩
  | rxPush b => exact ⟨_, rfl, congrArg _ (gated_withPending p s .rxPush _ (pushRx_withPending p s b))⟩
  | rxClr => exact ⟨_, rfl, congrArg _ (gated_withPending p s .rxClr State.clearRx rfl)⟩
  | rxDecode => exact ⟨_, rfl, congrArg _ (gated_withPending p s .rxDecode State.latchDec rfl)⟩
  | frStart => exact ⟨_, rfl, congrArg _ (gated_withPending p s .frStart State.startAttempt rfl)⟩
  | frSetctrl e =>
    exact ⟨_, rfl, congrArg _ (gated_withPending p s .frSetctrl (fun s => { s with expectData := e }) rfl)⟩
  | frSettmo v =>
    exact ⟨_, rfl, congrArg _ (gated_withPending p s .frSettmo (fun s => { s with frTimeout := v }) rfl)⟩
  | rxByte | addrByte | csumByte | payloadByte => exact ⟨_, rfl, congrArg _ (receive_withPending p s _)⟩
  | tick => exact ⟨_, rfl, congrArg _ (tickDown_withPending p s)⟩
  | _ => exact ⟨_, rfl, rfl⟩

theorem exec_withPending {i : Instr} {s t : State} (h : exec i s = .next t) (p : List Input) :
    exec i (withPending p s) = .next (withPending p t) := by
  obtain ⟨u, hu, hp⟩ := exec_ignores_pending p i s
  cases hu.symm.trans h
  exact hp

theorem resetLine_of_effect {i : Instr} {s t : State} (h : Effect i s t) : t.resetLine = s.resetLine := by
  cases h <;> rfl

/-! ### Runs over presented operations -/

/-- With reset released, the steps over a list of pending operations are the run of the instructions they decode to
(20_memory.md R83, R84). -/
theorem stepAll_of_decoded {os : List RawOp} {is : List Instr}
    (h : List.Forall₂ (fun o i => decode o = .ok i) os is) {s : State} (hr : s.resetLine = false)
    (hp : s.pending = []) : stepAll is.length (withPending (os.map .op) s) = execAll is s := by
  induction h generalizing s with
  | nil =>
    rw [List.map_nil, withPending_eq hp]
    rfl
  | @cons o i os is hd _ ih =>
    obtain ⟨t, ht, hpt⟩ := exec_completes_keeping_pending i s
    have hrt : t.resetLine = false := (resetLine_of_effect (effect_of_exec ht)).trans hr
    have hstep : step (withPending ((o :: os).map .op) s) = .next (withPending (os.map .op) t) :=
      (step_of_decoded (s := withPending _ s) rfl hr hd).trans (exec_withPending ht _)
    rw [List.length_cons, stepAll, hstep, execAll, ht]
    exact ih hrt (hpt.trans hp)

/-- The operations of a full clock cycle run in the order of 20_memory.md R85. -/
theorem stepAll_presentCycle {s : State} (b : Byte) {a : HostAccess} {i : Instr} (hp : s.pending = [])
    (hr : s.resetLine = false) (hd : decode a.raw = .ok i) :
    stepAll 4 (s.presentCycle { pop := true, rx := some b, tick := true, host := some a })
      = execAll [.txPop, .rxByte b, .tick, i] s := by
  have hpresent : s.presentCycle { pop := true, rx := some b, tick := true, host := some a }
      = withPending ([.txPop, .rxByte b, .tick, a.raw].map .op) s := by
    rw [State.presentCycle, State.presentOps, hp]
    rfl
  rw [hpresent]
  exact stepAll_of_decoded (.cons rfl (.cons rfl (.cons rfl (.cons hd .nil)))) hr hp

/-- A byte that comes with the last tick of an attempt is decoded before the deadline (43_framer.md R236, R238). -/
theorem byte_before_last_tick {s : State} (b : Byte) (hf : s.frState = .accum) (hrem : s.frRemain = 1)
    (hl : s.rxbuf.length < Config.rxCap) (hc : s.frComplete = false) (ht : s.frTimedout = false) :
    ∃ t, execAll [.rxByte b, .tick] s = .next t ∧ t.frState = .done ∧
      t.frComplete = complete (decodeRx (s.rxbuf ++ [b])) s.expectData ∧ t.frTimedout = !t.frComplete := by
  refine ⟨(s.receive b).tickDown, rfl, ?_⟩
  have hbuf : s.rxbuf ++ [b] = Memory.append s.rxbuf b := rfl
  rw [hbuf, receive_of_stores (i := .rxByte b) ⟨rfl, hf, hl⟩]
  obtain ⟨hcomp, e⟩ | ⟨hcomp, e⟩ := storeRx_cases s b <;> rw [e]
  · simp [State.tickDown, hcomp, ht]
  · simp [State.tickDown, hcomp, hf, hrem, hc]

/-- Settles O11: the order of a cycle's operations, and what it means for the last tick. -/
theorem cycleOrderLetsTheByteWin : Obligations.CycleOrderLetsTheByteWin :=
  ⟨fun _ b _ _ => stepAll_presentCycle b, fun _ b => byte_before_last_tick b⟩

/-! ### Host reads -/

/-- Settles O17: each read answers the word of its register. -/
theorem readsChangeNothing : Obligations.ReadsChangeNothing := by
  intro i s hi
  cases i with
  | rdCap | rdCmd | rdHerr | rdCsData | rdCsSum | rdCsCheck | rdTxAddr | rdTxPush | rdTxStat | rdRxPush
  | rdFrCtrl | rdFrTimeout | rdFrRemain | rdFrStat | rdDecStat | rdDecEcho | rdDecEcho2 | rdDecData | rdDecData2
  | rdRxb | rdTxp => exact ⟨_, rfl⟩
  | _ => cases hi

theorem regHerr_toNat (s : State) : (regHerr s).toNat = s.herr.toNat := by
  have hlt : s.herr.toNat < 2 ^ 32 := Nat.lt_trans s.herr.isLt (by decide)
  rw [regHerr, place, BitVec.shiftLeft_zero, BitVec.toNat_setWidth, Nat.mod_eq_of_lt hlt]

/-- Settles O18: the four write-only locations one by one, CAP by its constants and HERR by the value of its flags. -/
theorem systemAndWriteOnlyReads : Obligations.SystemAndWriteOnlyReads := by
  intro s
  refine ⟨?writeOnly, ⟨regCap, rfl, by decide, by decide, by decide⟩, ⟨regHerr s, rfl, regHerr_toNat s⟩⟩
  case writeOnly =>
    intro i hi
    simp only [List.mem_cons, List.not_mem_nil, or_false] at hi
    obtain rfl | rfl | rfl | rfl := hi <;> rfl

end Sys2Proof.Proofs
end

section
/-! PROOFS. The encodings of instructions and of frames (30_encoding.md): the operand of a write from the low bits of
its word, the bytes of the wire classes, and the response decoder on each shape a byte sequence can have, from which
the sequences it accepts are read off. -/

namespace Sys2Proof.Proofs

open Sys2Proof Sys2Proof.Machine

/-! ### Instructions -/

/-- Settles O1: decoding undoes encoding on every well-formed instruction. -/
theorem decodeOfEncodeIsTheInstruction : Obligations.DecodeOfEncodeIsTheInstruction :=
  fun _ => decode_encode

/-- Each row of R120 is the command of its code: the codes are distinct, and bits 8 and up are not looked at. -/
theorem commandCode_of_mem {p : Byte × Instr} (hp : p ∈ commandCodes) : CommandCode p.1.toNat p.2 := by
  intro v hv
  have hcode : byteOperand v = p.1 := BitVec.eq_of_toNat_eq (by simpa [byteOperand] using hv)
  have hrows : ∀ q ∈ commandCodes, commandCodes.lookup q.1 = some q.2 := by decide
  have hcmd : decodeCommand v = .ok p.2 := by rw [decodeCommand, hcode, hrows p hp]
  rw [← hcmd]
  exact (decode_located (off := 0x004) (by decide) rfl).1 v

/-- A write at the offset of a register is that register's operation on the written word. -/
theorem registerWrite_of_mem {off : Offset} {l : Loc} {f : Word → Instr} (hmem : (off, l) ∈ regMap)
    (hf : ∀ v, writeOp l v = .ok (f v)) : RegisterWrite off f := by
  intro v
  have hrows : ∀ q ∈ regMap, q.1.toNat % 4 = 0 ∧ locate q.1 = some q.2 := by decide
  obtain ⟨ha, hl⟩ := hrows _ hmem
  exact ((decode_located ha hl).1 v).trans (hf v)

/-- Settles O5: the eight codes are rows of R120's table, the eight offsets rows of R80's, and each register's write
takes the operand of R108. -/
theorem operandsComeFromTheLowBits : Obligations.OperandsComeFromTheLowBits := by
  refine ⟨⟨?_, ?_, ?_, ?_, ?_, ?_, ?_, ?_⟩, ?_, ?_, ?_, ?_, ?_, ?_, ?_, ?_⟩
  · exact commandCode_of_mem (p := (0x00, .nop)) (by decide)
  · exact commandCode_of_mem (p := (0x01, .csClr)) (by decide)
  · exact commandCode_of_mem (p := (0x10, .txClr)) (by decide)
  · exact commandCode_of_mem (p := (0x11, .txEncode)) (by decide)
  · exact commandCode_of_mem (p := (0x20, .rxClr)) (by decide)
  · exact commandCode_of_mem (p := (0x21, .rxDecode)) (by decide)
  · exact commandCode_of_mem (p := (0x22, .frStart)) (by decide)
  · exact commandCode_of_mem (p := (0xF0, .blkReset)) (by decide)
  · exact registerWrite_of_mem (l := .herr) (by decide) fun _ => rfl
  · exact registerWrite_of_mem (l := .csData) (by decide) fun _ => rfl
  · exact registerWrite_of_mem (l := .csCheck) (by decide) fun _ => rfl
  · exact registerWrite_of_mem (l := .txAddr) (by decide) fun _ => rfl
  · exact registerWrite_of_mem (l := .txPush) (by decide) fun _ => rfl
  · exact registerWrite_of_mem (l := .rxPush) (by decide) fun _ => rfl
  · exact registerWrite_of_mem (l := .frCtrl) (by decide) fun _ => rfl
  · exact registerWrite_of_mem (l := .frTimeout) (by decide) fun _ => rfl

/-- Settles O50: the byte shown with a class and the same byte by RX_BYTE are delivered alike. -/
theorem wireBytesAreReceived : Obligations.WireBytesAreReceived := by
  intro s x
  have hwire {i : Instr} {b : Byte} (hi : delivered i = some b) :
      ∃ t, exec i s = .next t ∧ exec (.rxByte b) s = .next t :=
    ⟨_, exec_delivered hi s, exec_delivered rfl s⟩
  exact ⟨hwire rfl, hwire rfl, hwire rfl⟩

/-! ### Positions in a sequence of bytes -/

theorem read_append_cons (u w : List Byte) (b : Byte) : Memory.read (u ++ b :: w) u.length = b := by
  simp [Memory.read]

theorem slice_append (u v w : List Byte) : Memory.slice (u ++ v ++ w) u.length (u.length + v.length) = v := by
  rw [Memory.slice, ← List.length_append, List.take_left, List.drop_left]

/-- A received checksum byte matches exactly where it is the encoding of the computed checksum (30_encoding.md R103,
R104). -/
theorem trailerMatches_iff (comp : BitVec 7) (r : Byte) : trailerMatches comp r = true ↔ r = wireLow comp := by
  simp [trailerMatches]

/-! ### The echo section -/

theorem length_of_echoSection {map : Byte → Byte} {e : List Byte} (he : EchoSection map e) : e.length = 5 := by
  obtain ⟨a, c, st, x, -, rfl⟩ := he
  rfl

/-- The bytes step 1 of `Decode` looks at are those of the first five bytes as an echo section (42_deserializer.md
R196). -/
theorem echoSection_take_iff (map : Byte → Byte) {s : List Byte} (h : 5 ≤ s.length) :
    EchoSection map (s.take 5) ↔ map (Memory.read s 2) ≠ 0 ∧
      trailerMatches (csum (Memory.slice s 0 4)) (Memory.read s 4) = true := by
  obtain ⟨a, c, st, x, r, rest, rfl⟩ : ∃ a c st x r rest, s = a :: c :: st :: x :: r :: rest := by
    match s, h with
    | a :: c :: st :: x :: r :: rest, _ => exact ⟨a, c, st, x, r, rest, rfl⟩
  rw [trailerMatches_iff]
  constructor
  · rintro ⟨a', c', st', x', hst, he⟩
    cases he
    exact ⟨hst, rfl⟩
  · rintro ⟨hst, hr⟩
    exact ⟨a, c, st, x, hst, congrArg (fun r => [a, c, st, x, r]) hr⟩

/-- After a valid echo section the data section decides. -/
theorem decodeFrame_of_echoSection {map : Byte → Byte} {e : List Byte} (he : EchoSection map e) (t : List Byte) :
    decodeFrame map (e ++ t) = decodeData (e ++ t) { echoFields map e with echoOk := true } := by
  have htake : (e ++ t).take 5 = e := List.take_left' (length_of_echoSection he)
  have h5 : 5 ≤ (e ++ t).length := by simp [length_of_echoSection he]
  have hfields : echoFields map (e ++ t) = echoFields map e := by
    obtain ⟨a, c, st, x, -, rfl⟩ := he
    rfl
  obtain ⟨hst, hsum⟩ := (echoSection_take_iff map h5).mp (htake.symm ▸ he)
  obtain ⟨h, -⟩ | ⟨-, h, -⟩ | ⟨-, -, h, -⟩ | ⟨-, -, -, h⟩ := decodeFrame_cases map (e ++ t)
  · omega
  · exact absurd h hst
  · exact absurd (hsum.symm.trans h) (by decide)
  · rw [h, hfields]

/-- Only a sequence that begins with a valid echo section is accepted. -/
theorem echoSection_or_rejected (map : Byte → Byte) (s : List Byte) :
    (∃ e t, s = e ++ t ∧ EchoSection map e) ∨
    (decodeFrame map s).verdict ≠ .okEcho ∧ (decodeFrame map s).verdict ≠ .okEchoData := by
  obtain ⟨-, h⟩ | ⟨-, -, h⟩ | ⟨-, -, -, h⟩ | ⟨h5, hst, hsum, -⟩ := decodeFrame_cases map s
  case inr.inr.inr =>
    exact .inl ⟨s.take 5, s.drop 5, (List.take_append_drop 5 s).symm, (echoSection_take_iff map h5).mpr ⟨hst, hsum⟩⟩
  all_goals
    rw [h]
    exact .inr ⟨nofun, nofun⟩

/-! ### The data section -/

theorem scan_eq_none {a : Byte} {p : List Byte} (hp : a ∉ p) : p.findIdx? (· == a) = none :=
  List.findIdx?_eq_none_iff.mpr fun _ hb => beq_false_of_ne (ne_of_mem_of_not_mem hb hp)

/-- The bytes after an echo section: none, a header cut short, no terminator, nothing after the terminator, or a byte
in the place of the trailer (42_deserializer.md R204, R205). -/
theorem data_shapes (t : List Byte) :
    t = [] ∨ (∃ a, t = [a]) ∨ ∃ a c p, a ∉ p ∧
      (t = [a, c] ++ p ∨ t = [a, c] ++ p ++ [a] ∨ ∃ r rest, t = [a, c] ++ p ++ [a, r] ++ rest) := by
  match t with
  | [] => exact .inl rfl
  | [a] => exact .inr (.inl ⟨a, rfl⟩)
  | a :: c :: u =>
    refine .inr (.inr ?_)
    by_cases ha : a ∈ u
    · obtain ⟨p, after, rfl, hp⟩ := List.eq_append_cons_of_mem ha
      cases after with
      | nil => exact ⟨a, c, p, hp, .inr (.inl (by simp))⟩
      | cons r rest => exact ⟨a, c, p, hp, .inr (.inr ⟨r, rest, by simp⟩)⟩
    · exact ⟨a, c, u, ha, .inl rfl⟩

theorem decodeData_of_no_terminator {s : List Byte} (h7 : 7 ≤ s.length) (ht : terminator s = none) (r : Dec) :
    decodeData s r = { r with
      dAddr := Memory.read s 5, dCmd := Memory.read s 6, verdict := .errMalformed, reason := .noTerminator } := by
  rw [decodeData, if_neg (by omega), if_neg (by omega), ht]

theorem decodeData_of_terminator {s : List Byte} {i : Nat} (ht : terminator s = some i) (r : Dec) :
    decodeData s r =
      let found := { r with
        dAddr := Memory.read s 5, dCmd := Memory.read s 6, dTerm := count8 i, dPlen := count8 (i - 7) }
      if i + 1 < s.length then decodeTrailer s i found
      else { found with verdict := .errMalformed, reason := .noTrailer } := by
  obtain ⟨h7, hlt, -, -⟩ := terminator_some s i ht
  rw [decodeData, if_neg (by omega), if_neg (by omega), ht]
  by_cases hi : i + 1 < s.length
  · simp [hi]
  · simp [hi, Nat.le_of_not_lt hi]

/-- The trailer's check, with the section it covers and the byte it reads given. -/
theorem decodeTrailer_of_section {s region : List Byte} {i : Nat} {b : Byte}
    (hregion : Memory.slice s 5 (i + 1) = region) (hb : Memory.read s (i + 1) = b) (r : Dec) :
    decodeTrailer s i r =
      let found := { r with dComp := csum region, dRcvd := b }
      if b = wireLow (csum region) then { found with
        verdict := .okEchoData, dataOk := true, consumed := count8 (i + 2), trailing := decide (s.length > i + 2) }
      else { found with verdict := .errCsum, sect := true } := by
  subst hregion hb
  simp only [← trailerMatches_iff]
  obtain ⟨hmatch, h⟩ | ⟨hmatch, h⟩ := decodeTrailer_cases s i r
  · rw [h, if_neg (Bool.eq_false_iff.mp hmatch)]
  · rw [h, if_pos hmatch]

section
variable {map : Byte → Byte} {e : List Byte} (he : EchoSection map e)
include he

/-- The scan for the terminator reads byte 5 and starts behind byte 6 (42_deserializer.md R203). -/
theorem terminator_of_header (a c : Byte) (u : List Byte) :
    terminator (e ++ [a, c] ++ u) = (u.findIdx? (· == a)).map (· + 7) := by
  obtain ⟨b₀, b₁, b₂, b₃, -, rfl⟩ := he
  rfl

theorem terminator_eq_none {a : Byte} {p : List Byte} (hp : a ∉ p) (c : Byte) :
    terminator (e ++ [a, c] ++ p) = none := by
  rw [terminator_of_header he, scan_eq_none hp]
  rfl

theorem terminator_eq_some {a : Byte} {p : List Byte} (hp : a ∉ p) (c : Byte) (rest : List Byte) :
    terminator (e ++ [a, c] ++ p ++ a :: rest) = some (7 + p.length) := by
  have hhit : (a :: rest).findIdx? (· == a) = some 0 := by simp [List.findIdx?_cons]
  rw [List.append_assoc (e ++ [a, c]), terminator_of_header he, List.findIdx?_append, scan_eq_none hp, hhit]
  simp [Nat.add_comm]

theorem read_header (a c : Byte) (u : List Byte) :
    Memory.read (e ++ [a, c] ++ u) 5 = a ∧ Memory.read (e ++ [a, c] ++ u) 6 = c := by
  obtain ⟨b₀, b₁, b₂, b₃, -, rfl⟩ := he
  exact ⟨rfl, rfl⟩

/-- An echo section alone is accepted. -/
theorem decodeFrame_echo_alone : decodeFrame map e = { echoFields map e with
    verdict := .okEcho, echoOk := true, consumed := 5 } := by
  have h := decodeFrame_of_echoSection he []
  rw [List.append_nil] at h
  rw [h, decodeData, if_pos (length_of_echoSection he)]

theorem decodeFrame_header_short (a : Byte) : decodeFrame map (e ++ [a]) = { echoFields map e with
    verdict := .errMalformed, reason := .dataHdrShort, echoOk := true } := by
  simp [decodeFrame_of_echoSection he, decodeData, length_of_echoSection he]

theorem decodeFrame_no_terminator {a : Byte} {p : List Byte} (hp : a ∉ p) (c : Byte) :
    decodeFrame map (e ++ [a, c] ++ p) = { echoFields map e with
      verdict := .errMalformed, reason := .noTerminator, echoOk := true, dAddr := a, dCmd := c } := by
  obtain ⟨h5, h6⟩ := read_header he a c p
  have h7 : 7 ≤ (e ++ [a, c] ++ p).length := by
    simp only [List.length_append, List.length_cons, List.length_nil, length_of_echoSection he]
    omega
  have hdata := decodeData_of_no_terminator h7 (terminator_eq_none he hp c) { echoFields map e with echoOk := true }
  rw [h5, h6, List.append_assoc] at hdata
  rw [List.append_assoc, decodeFrame_of_echoSection he, hdata]

/-- With a terminator found, what follows it decides: nothing, or the byte in the trailer's place. -/
theorem decodeFrame_of_terminator {a : Byte} {p : List Byte} (hp : a ∉ p) (c : Byte) (after : List Byte) :
    decodeFrame map (e ++ [a, c] ++ p ++ a :: after) =
      let found := { echoFields map e with
        echoOk := true, dAddr := a, dCmd := c, dTerm := count8 (7 + p.length), dPlen := count8 p.length }
      if after = [] then { found with verdict := .errMalformed, reason := .noTrailer }
      else decodeTrailer (e ++ [a, c] ++ p ++ a :: after) (7 + p.length) found := by
  obtain ⟨h5, h6⟩ := read_header he a c (p ++ a :: after)
  have hdata := decodeData_of_terminator (terminator_eq_some he hp c after) { echoFields map e with echoOk := true }
  have hlen : 7 + p.length + 1 < (e ++ [a, c] ++ p ++ a :: after).length ↔ after ≠ [] := by
    simp only [← List.length_pos_iff, List.length_append, List.length_cons, List.length_nil, length_of_echoSection he]
    omega
  rw [← List.append_assoc] at h5 h6
  rw [h5, h6, Nat.add_sub_cancel_left] at hdata
  have hsplit : e ++ [a, c] ++ p ++ a :: after = e ++ ([a, c] ++ p ++ a :: after) := by simp
  rw [hsplit, decodeFrame_of_echoSection he, ← hsplit, hdata]
  simp only [hlen, ite_not]

theorem decodeFrame_no_trailer {a : Byte} {p : List Byte} (hp : a ∉ p) (c : Byte) :
    decodeFrame map (e ++ [a, c] ++ p ++ [a]) = { echoFields map e with
      verdict := .errMalformed, reason := .noTrailer, echoOk := true, dAddr := a, dCmd := c
      dTerm := count8 (7 + p.length), dPlen := count8 p.length } :=
  decodeFrame_of_terminator he hp c []

/-- A byte in the trailer's place is compared with the checksum of the section before it, and what follows it shows in
`trailing` alone. -/
theorem decodeFrame_trailer {a : Byte} {p : List Byte} (hp : a ∉ p) (c r : Byte) (rest : List Byte) :
    decodeFrame map (e ++ [a, c] ++ p ++ [a, r] ++ rest) =
      let found := { echoFields map e with
        echoOk := true, dAddr := a, dCmd := c, dTerm := count8 (7 + p.length), dPlen := count8 p.length
        dComp := csum ([a, c] ++ p ++ [a]), dRcvd := r }
      if r = wireLow (csum ([a, c] ++ p ++ [a])) then { found with
        verdict := .okEchoData, dataOk := true, consumed := count8 (9 + p.length), trailing := decide (rest ≠ []) }
      else { found with verdict := .errCsum, sect := true } := by
  have hsplit : e ++ [a, c] ++ p ++ [a, r] ++ rest = e ++ [a, c] ++ p ++ a :: r :: rest := by simp
  have hsection : e ++ ([a, c] ++ p ++ [a]) ++ r :: rest = e ++ [a, c] ++ p ++ a :: r :: rest := by simp
  have hend : e.length + ([a, c] ++ p ++ [a]).length = 7 + p.length + 1 := by
    simp only [List.length_append, List.length_cons, List.length_nil, length_of_echoSection he]
    omega
  have hslice := slice_append e ([a, c] ++ p ++ [a]) (r :: rest)
  rw [hsection, hend, length_of_echoSection he] at hslice
  have hread := read_append_cons (e ++ ([a, c] ++ p ++ [a])) rest r
  rw [hsection, List.length_append, hend] at hread
  have htrailing : (e ++ [a, c] ++ p ++ a :: r :: rest).length > 9 + p.length ↔ rest ≠ [] := by
    simp only [← List.length_pos_iff, List.length_append, List.length_cons, List.length_nil, length_of_echoSection he]
    omega
  have hcount : 7 + p.length + 2 = 9 + p.length := by omega
  rw [hsplit, decodeFrame_of_terminator he hp, if_neg nofun, decodeTrailer_of_section hslice hread, hcount]
  simp only [htrailing]

/-- An echo section and a data section are accepted, with whatever follows. -/
theorem verdict_of_dataSection {a c : Byte} {p d : List Byte} (hd : DataSection a c p d) (rest : List Byte) :
    (decodeFrame map (e ++ d ++ rest)).verdict = .okEchoData := by
  obtain ⟨hp, rfl⟩ := hd
  have h := decodeFrame_trailer he hp c (wireLow (csum ([a, c] ++ p ++ [a]))) rest
  have hsplit : e ++ ([a, c] ++ p ++ [a] ++ [(csum ([a, c] ++ p ++ [a])).setWidth 8]) ++ rest
      = e ++ [a, c] ++ p ++ [a, wireLow (csum ([a, c] ++ p ++ [a]))] ++ rest := by simp [wireLow]
  rw [if_pos rfl] at h
  rw [hsplit, h]

end

/-- Every sequence is an echo section alone, a valid response with whatever follows, or rejected (42_deserializer.md
R207). -/
theorem response_cases (map : Byte → Byte) (s : List Byte) :
    (EchoSection map s ∧ (decodeFrame map s).verdict = .okEcho) ∨
    ((∃ e d rest a c p, s = e ++ d ++ rest ∧ EchoSection map e ∧ DataSection a c p d) ∧
      (decodeFrame map s).verdict = .okEchoData) ∨
    (decodeFrame map s).verdict ≠ .okEcho ∧ (decodeFrame map s).verdict ≠ .okEchoData := by
  obtain ⟨e, t, rfl, he⟩ | hrejected := echoSection_or_rejected map s
  · obtain rfl | ⟨a, rfl⟩ | ⟨a, c, p, hp, rfl | rfl | ⟨r, rest, rfl⟩⟩ := data_shapes t
    · rw [List.append_nil]
      exact .inl ⟨he, by rw [decodeFrame_echo_alone he]⟩
    · refine .inr (.inr ?_)
      rw [decodeFrame_header_short he]
      exact ⟨nofun, nofun⟩
    · refine .inr (.inr ?_)
      rw [← List.append_assoc, decodeFrame_no_terminator he hp]
      exact ⟨nofun, nofun⟩
    · refine .inr (.inr ?_)
      rw [← List.append_assoc, ← List.append_assoc, decodeFrame_no_trailer he hp]
      exact ⟨nofun, nofun⟩
    · by_cases hr : r = wireLow (csum ([a, c] ++ p ++ [a]))
      · have hd : DataSection a c p ([a, c] ++ p ++ [a] ++ [r]) := ⟨hp, by rw [hr, wireLow]⟩
        have hsplit : e ++ ([a, c] ++ p ++ [a, r] ++ rest) = e ++ ([a, c] ++ p ++ [a] ++ [r]) ++ rest := by simp
        rw [hsplit]
        exact .inr (.inl ⟨⟨e, _, rest, a, c, p, rfl, he, hd⟩, verdict_of_dataSection he hd rest⟩)
      · refine .inr (.inr ?_)
        have hsplit : e ++ ([a, c] ++ p ++ [a, r] ++ rest) = e ++ [a, c] ++ p ++ [a, r] ++ rest := by simp
        rw [hsplit, decodeFrame_trailer he hp, if_neg hr]
        exact ⟨nofun, nofun⟩
  · exact .inr (.inr hrejected)

/-- Settles O41: the two accepted shapes have their verdicts, and no other shape has either. -/
theorem decodeAcceptsExactlyValidResponses : Obligations.DecodeAcceptsExactlyValidResponses := by
  intro map s
  have hecho : EchoSection map s → (decodeFrame map s).verdict = .okEcho := by
    intro he
    rw [decodeFrame_echo_alone he]
  have hdata : (∃ e d rest a c p, s = e ++ d ++ rest ∧ EchoSection map e ∧ DataSection a c p d) →
      (decodeFrame map s).verdict = .okEchoData := by
    rintro ⟨e, d, rest, a, c, p, rfl, he, hp, rfl⟩
    exact verdict_of_dataSection he ⟨hp, rfl⟩ rest
  refine ⟨⟨fun h => ?_, hecho⟩, ⟨fun h => ?_, hdata⟩⟩
  · obtain ⟨he, -⟩ | ⟨-, h'⟩ | ⟨h', -⟩ := response_cases map s
    · exact he
    · cases h.symm.trans h'
    · exact absurd h h'
  · obtain ⟨-, h'⟩ | ⟨hd, -⟩ | ⟨-, h'⟩ := response_cases map s
    · cases h.symm.trans h'
    · exact hd
    · exact absurd h h'

end Sys2Proof.Proofs
end

section
/-! PROOFS. The checksum (40_checksum.md): `csum` is additive, so it is accumulated byte by byte in seven bits and a
change of one byte shows in it; a run of CS_ADD adds the checksum of its bytes to CS_ACC; and the fields of a register
word are read back from the bits they were placed at. -/

namespace Sys2Proof.Proofs

open Sys2Proof Sys2Proof.Machine

/-! ### The value of the checksum -/

theorem low7_toNat (b : Byte) : (low7 b).toNat = b.toNat % 128 := by
  rw [low7, BitVec.extractLsb'_toNat, Nat.shiftRight_zero]

theorem low7_eq_iff (x y : Byte) : low7 x = low7 y ↔ x.toNat % 128 = y.toNat % 128 := by
  rw [← BitVec.toNat_inj, low7_toNat, low7_toNat]

theorem csum_toNat (s : List Byte) : (csum s).toNat = (s.map BitVec.toNat).sum % 128 :=
  BitVec.toNat_ofNat _ 7

/-- Only the low seven bits of each byte count (40_checksum.md R142). -/
theorem csum_toNat_eq_sum_low_bits (s : List Byte) :
    (csum s).toNat = (s.map (fun b => b.toNat % 128)).sum % 128 := by
  rw [csum_toNat, List.sum_nat_mod, List.map_map]
  rfl

theorem csum_nil : csum [] = 0 := rfl

theorem csum_append (s t : List Byte) : csum (s ++ t) = csum s + csum t := by
  rw [csum, List.map_append, List.sum_append, BitVec.ofNat_add, csum, csum]

theorem csum_singleton (b : Byte) : csum [b] = low7 b := by
  apply BitVec.eq_of_toNat_eq
  rw [csum_toNat, low7_toNat, List.map_singleton, List.sum_singleton]

theorem csum_cons (b : Byte) (s : List Byte) : csum (b :: s) = low7 b + csum s := by
  rw [← List.singleton_append, csum_append, csum_singleton]

/-- Settles O21: the value of `csum` in its two forms, and its equations for one byte. -/
theorem csumIsASevenBitAccumulator : Obligations.CsumIsASevenBitAccumulator := by
  refine ⟨csum_toNat, fun s b => ?append, fun s t h => ?lowBits, fun a => ?address⟩
  case append => rw [csum_append, csum_singleton, BitVec.toNat_add, low7_toNat]
  case lowBits =>
    apply BitVec.eq_of_toNat_eq
    rw [csum_toNat_eq_sum_low_bits, csum_toNat_eq_sum_low_bits, h]
  case address => exact (csum_singleton (wireAddr a)).trans (low7_wireAddr a)

/-- Settles O23: the bytes around the changed one cancel, and the values of two checksums compare as their sums. -/
theorem singleByteChangeDetected : Obligations.SingleByteChangeDetected := by
  refine ⟨fun p q x y => not_congr ?oneByte, fun s t => ?manyBytes⟩
  case oneByte =>
    calc csum (p ++ [x] ++ q) = csum (p ++ [y] ++ q)
        ↔ csum p + low7 x + csum q = csum p + low7 y + csum q := by simp only [csum_append, csum_singleton]
      _ ↔ low7 x = low7 y := by rw [add_left_inj, add_right_inj]
      _ ↔ x.toNat % 128 = y.toNat % 128 := low7_eq_iff x y
  case manyBytes =>
    rw [← BitVec.toNat_inj, csum_toNat_eq_sum_low_bits, csum_toNat_eq_sum_low_bits]

/-! ### Runs of operations -/

theorem execAll_cons_of_next {i : Instr} {s t : State} (h : exec i s = .next t) (is : List Instr) :
    execAll (i :: is) s = execAll is t := by
  rw [execAll, h]

theorem execAll_append_of_next {is : List Instr} {s t : State} (h : execAll is s = .next t) (js : List Instr) :
    execAll (is ++ js) s = execAll js t := by
  induction is generalizing s with
  | nil =>
    cases h
    rfl
  | cons i is ih =>
    obtain ⟨u, hu, -⟩ := exec_completes_keeping_pending i s
    rw [execAll_cons_of_next hu] at h
    rw [List.cons_append, execAll_cons_of_next hu, ih h]

/-- A run of CS_ADD adds the checksum of its bytes, whatever CS_ACC was (40_checksum.md R144). -/
theorem execAll_csAdd (bs : List Byte) (s : State) :
    execAll (bs.map .csAdd) s = .next { s with csAcc := s.csAcc + csum bs } := by
  induction bs generalizing s with
  | nil => rw [csum_nil, add_zero, List.map_nil, execAll]
  | cons b bs ih =>
    have hadd : exec (.csAdd b) s = .next { s with csAcc := s.csAcc + low7 b } := rfl
    rw [List.map_cons, execAll_cons_of_next hadd, ih, csum_cons, add_assoc]

/-- After a clear the run leaves the checksum of its bytes alone in CS_ACC (40_checksum.md R143, R144). -/
theorem execAll_csClr_csAdd (bs : List Byte) (s : State) :
    execAll (.csClr :: bs.map .csAdd) s = .next { s with csAcc := csum bs, csRcvd := 0 } := by
  have hclr : exec .csClr s = .next { s with csAcc := 0, csRcvd := 0 } := rfl
  rw [execAll_cons_of_next hclr, execAll_csAdd, zero_add]

/-- Settles O19: each write from its row of the command or register table, and the run of CS_ADD started at 0. -/
theorem checksumUnitWrites : Obligations.ChecksumUnitWrites := by
  refine ⟨commandCode_of_mem (p := (0x01, .csClr)) (by decide),
    registerWrite_of_mem (l := .csData) (by decide) fun _ => rfl,
    registerWrite_of_mem (l := .csCheck) (by decide) fun _ => rfl,
    fun s => ⟨rfl, fun b => ⟨s.csAcc + low7 b, rfl, ?add⟩, fun _ => rfl, fun bs h0 => ?run⟩⟩
  case add => rw [BitVec.toNat_add, low7_toNat]
  case run => rw [execAll_csAdd, h0, zero_add]

/-! ### The fields of a register word -/

theorem place_zero_toNat {w : Nat} (hw : w ≤ 32) (f : BitVec w) : (place 0 f).toNat = f.toNat := by
  rw [place, BitVec.shiftLeft_zero, BitVec.toNat_setWidth_of_le hw]

/-- Bit `i` of a word with one field at `lo` is the field's bit `i - lo` (30_encoding.md R108). -/
theorem getLsbD_place {lo w : Nat} (f : BitVec w) (i : Nat) :
    (place lo f).getLsbD i = (decide (lo ≤ i ∧ i < 32) && f.getLsbD (i - lo)) := by
  rw [place, BitVec.getLsbD_shiftLeft, BitVec.getLsbD_setWidth, Bool.eq_iff_iff]
  simp only [Bool.and_eq_true, Bool.not_eq_true', decide_eq_true_eq, decide_eq_false_iff_not]
  constructor
  · rintro ⟨⟨hi, hlo⟩, -, hf⟩
    exact ⟨⟨by omega, hi⟩, hf⟩
  · rintro ⟨⟨hlo, hi⟩, hf⟩
    exact ⟨⟨hi, by omega⟩, by omega, hf⟩

theorem extract_place_same {lo w : Nat} (hw : lo + w ≤ 32) (f : BitVec w) : (place lo f).extractLsb' lo w = f := by
  ext i hi
  have hin : lo ≤ lo + i ∧ lo + i < 32 := by omega
  rw [BitVec.getElem_extractLsb', getLsbD_place, Nat.add_sub_cancel_left, decide_eq_true hin, Bool.true_and,
    BitVec.getLsbD_eq_getElem]

/-- Bits that lie wholly above or wholly below a field are zeros. -/
theorem extract_place_other {lo w k n : Nat} (h : lo + w ≤ k ∨ k + n ≤ lo) (f : BitVec w) :
    (place lo f).extractLsb' k n = 0 := by
  ext i hi
  rw [BitVec.getElem_extractLsb', getLsbD_place]
  obtain habove | hbelow := h
  · rw [BitVec.getLsbD_of_ge f _ (by omega)]
    simp
  · rw [decide_eq_false (by omega)]
    simp

/-! ### The reads of the checksum unit -/

/-- A read at the offset of a register is that register's read. -/
theorem registerRead_of_mem {off : Offset} {l : Loc} (hmem : (off, l) ∈ regMap) : RegisterRead off (readOp l) := by
  have hrows : ∀ q ∈ regMap, q.1.toNat % 4 = 0 ∧ locate q.1 = some q.2 := by decide
  obtain ⟨ha, hl⟩ := hrows _ hmem
  exact (decode_located ha hl).2

theorem csMatch_iff (s : State) : csMatch s = true ↔ s.csRcvd = wireLow s.csAcc :=
  trailerMatches_iff s.csAcc s.csRcvd

theorem wireLow_toNat (x : BitVec 7) : (wireLow x).toNat = x.toNat :=
  BitVec.toNat_setWidth_of_le (by decide)

theorem regCsCheck_rcvd (s : State) : (regCsCheck s).extractLsb' 0 8 = s.csRcvd := by
  rw [regCsCheck, BitVec.extractLsb'_or, extract_place_same (by decide), extract_place_other (by decide)]
  exact BitVec.or_zero

theorem regCsCheck_match (s : State) : (regCsCheck s).getLsbD 8 = csMatch s := by
  rw [regCsCheck, BitVec.getLsbD_or, getLsbD_place, getLsbD_place, BitVec.getLsbD_of_ge s.csRcvd _ (by decide)]
  simp [bit]

theorem regCsCheck_above (s : State) : (regCsCheck s).extractLsb' 9 23 = 0 := by
  rw [regCsCheck, BitVec.extractLsb'_or, extract_place_other (by decide), extract_place_other (by decide)]
  exact BitVec.or_zero

/-- Settles O20: the two rows of the register table, and each field of the two words. -/
theorem checksumUnitReads : Obligations.ChecksumUnitReads := by
  refine ⟨registerRead_of_mem (l := .csSum) (by decide), registerRead_of_mem (l := .csCheck) (by decide), fun s =>
    ⟨⟨regCsSum s, rfl, place_zero_toNat (by decide) s.csAcc⟩,
      ⟨regCsCheck s, rfl, regCsCheck_rcvd s, ?live, regCsCheck_above s⟩⟩⟩
  case live => rw [regCsCheck_match, csMatch_iff, ← BitVec.toNat_inj, wireLow_toNat]

/-- Settles O22: the run of CS_ADD leaves the checksum of the bytes in the cleared CS_ACC, where the trailer written
after it matches. -/
theorem checksumRoundTripMatches : Obligations.ChecksumRoundTripMatches := by
  intro s bs
  refine ⟨regCsCheck { s with csAcc := csum bs, csRcvd := wireLow (csum bs) }, ?run, ?live⟩
  case run =>
    rw [execAll_append_of_next (execAll_csClr_csAdd bs s)]
    rfl
  case live => rw [regCsCheck_match, csMatch_iff]

end Sys2Proof.Proofs
end

section
/-! PROOFS. The serializer (41_serializer.md): the bytes of an encoded frame, each TX operation by its equation, the
reads, that no TX operation looks at the receive side, and that what is emitted and queued grows by whole frames. -/

namespace Sys2Proof.Proofs

open Sys2Proof Sys2Proof.Machine

/-! ### The bytes of a frame -/

/-- A frame, byte by byte (41_serializer.md R160). -/
theorem encodeFrame_eq (a : BitVec 7) (p : List Byte) :
    encodeFrame a p = wireAddr a :: (p ++ [wireAddr a, wireLow (csum (requestRegion a p))]) := by
  simp [encodeFrame, requestRegion]

/-- The checksum of a request counts the address twice, without its marker (41_serializer.md R161). -/
theorem csum_requestRegion_toNat (a : BitVec 7) (p : List Byte) :
    (csum (requestRegion a p)).toNat = (2 * a.toNat + (p.map BitVec.toNat).sum) % 128 := by
  have hsum : csum (requestRegion a p) = a + csum p + a := by
    simp only [requestRegion, csum_append, csum_singleton, low7_wireAddr]
  rw [hsum, BitVec.toNat_add, BitVec.toNat_add, csum_toNat]
  omega

/-- The payload lies in the frame after the first address byte. -/
theorem read_encodeFrame_payload (a : BitVec 7) {p : List Byte} {k : Nat} (hk : k < p.length) :
    Memory.read (encodeFrame a p) (k + 1) = p[k] := by
  rw [read_below _ _ (by rw [encodeFrame_length]; omega)]
  simp only [encodeFrame_eq, List.getElem_cons_succ, List.getElem_append_left hk]

/-- The second address byte is the second-last byte of the frame. -/
theorem read_encodeFrame_address (a : BitVec 7) (p : List Byte) :
    Memory.read (encodeFrame a p) (p.length + 1) = wireAddr a := by
  rw [encodeFrame_eq]
  exact read_append_cons (wireAddr a :: p) _ _

/-- The trailer is the last byte of the frame. -/
theorem read_encodeFrame_trailer (a : BitVec 7) (p : List Byte) :
    Memory.read (encodeFrame a p) (p.length + 2) = wireLow (csum (requestRegion a p)) := by
  have h := read_append_cons (requestRegion a p) [] (wireLow (csum (requestRegion a p)))
  have hlen : (requestRegion a p).length = p.length + 2 := by simp [requestRegion]
  rwa [hlen] at h

/-- Only the two address bytes carry a marker, the payload being ASCII (30_encoding.md R102). -/
theorem marker_read_encodeFrame (a : BitVec 7) {p : List Byte} (hp : AsciiBytes p) {k : Nat} (hk : k < p.length + 3) :
    marker (Memory.read (encodeFrame a p) k) = true ↔ k = 0 ∨ k = p.length + 1 := by
  obtain rfl | ⟨j, hj, rfl⟩ | rfl | rfl :
      k = 0 ∨ (∃ j < p.length, k = j + 1) ∨ k = p.length + 1 ∨ k = p.length + 2 := by
    cases k with
    | zero => exact .inl rfl
    | succ j =>
      by_cases hj : j < p.length
      · exact .inr (.inl ⟨j, hj, rfl⟩)
      · omega
  · exact iff_of_true (marker_wireAddr a) (.inl rfl)
  · rw [read_encodeFrame_payload a hj, hp _ (List.getElem_mem hj)]
    exact iff_of_false nofun (by omega)
  · rw [read_encodeFrame_address]
    exact iff_of_true (marker_wireAddr a) (.inr rfl)
  · rw [read_encodeFrame_trailer, marker_wireLow]
    exact iff_of_false nofun (by omega)

/-- Settles O30: the bytes of a frame at their positions, and the checksum of the protected region. -/
theorem encodedFrameShape : Obligations.EncodedFrameShape := by
  intro a p hp
  refine ⟨encodeFrame_length a p, fun _ => marker_read_encodeFrame a hp, ?trailer⟩
  case trailer => rw [read_encodeFrame_trailer, wireLow_toNat, csum_requestRegion_toNat]

/-! ### The operations of the serializer -/

/-- Settles O25: the rows of TX_ADDR and of TX_CLR, and the two states they answer. -/
theorem serializerSettings : Obligations.SerializerSettings :=
  ⟨registerWrite_of_mem (l := .txAddr) (by decide) fun _ => rfl,
    commandCode_of_mem (p := (0x10, .txClr)) (by decide), fun _ => ⟨fun _ => rfl, rfl⟩⟩

theorem marker_eq_decide (b : Byte) : marker b = decide (128 ≤ b.toNat) := by
  rw [Bool.eq_iff_iff, marker_iff, decide_eq_true_iff]

theorem marker_eq_false_iff (b : Byte) : marker b = false ↔ b.toNat < 128 := by
  rw [marker_eq_decide, decide_eq_false_iff_not, Nat.not_le]

/-- Settles O26: the marker of a byte says whether its value is 128 or more. -/
theorem txPushStoresOrFlags : Obligations.TxPushStoresOrFlags := by
  refine ⟨registerWrite_of_mem (l := .txPush) (by decide) fun _ => rfl, fun s b => ?_⟩
  have hpush : exec (.txPush b) s = .next (s.pushTx b) := rfl
  rw [hpush, State.pushTx, ← marker_eq_decide]
  simp only [marker_eq_false_iff]
  rfl

theorem txBad_eq_false_iff (s : State) : txBad s = false ↔ s.txNonascii = false ∧ s.txOvf = false :=
  Bool.or_eq_false_iff

theorem txBad_iff (s : State) : txBad s = true ↔ s.txNonascii = true ∨ s.txOvf = true :=
  Bool.or_eq_true_iff

theorem txBusy_iff (s : State) : txBusy s = true ↔ s.txq ≠ [] := by
  simp [txBusy]

/-- The two conditions of R165 and R166 exclude each other. -/
theorem not_refused_of_accepted {s : State} (hacc : txBad s = false ∧ s.txq = []) :
    ¬ (txBad s = true ∨ s.txq ≠ []) := by
  simp [hacc]

theorem exec_txEncode (s : State) : exec .txEncode s = .next s.encodeTx := rfl

/-- The trailer byte of R161 is the encoding of the checksum. -/
theorem wireLow_csum_requestRegion (a : BitVec 7) (p : List Byte) :
    wireLow (csum (requestRegion a p)) = BitVec.ofNat 8 ((2 * a.toNat + (p.map BitVec.toNat).sum) % 128) := by
  apply BitVec.eq_of_toNat_eq
  rw [wireLow_toNat, csum_requestRegion_toNat, BitVec.toNat_ofNat]
  omega

/-- Settles O27: a TX_ENCODE that is not refused queues the frame, whose trailer is the value of R161. -/
theorem txEncodeQueuesTheFrame : Obligations.TxEncodeQueuesTheFrame := by
  refine ⟨commandCode_of_mem (p := (0x11, .txEncode)) (by decide), fun s hn ho hq => ?_⟩
  have hbad : txBad s = false := (txBad_eq_false_iff s).mpr ⟨hn, ho⟩
  obtain ⟨-, -, e⟩ | ⟨hr, -⟩ := encodeTx_cases s
  · rw [exec_txEncode, e, encodeFrame, wireLow_csum_requestRegion]
    rfl
  · exact absurd hr (not_refused_of_accepted ⟨hbad, hq⟩)

/-- Settles O28: where a condition of refusal holds, each flag is recorded under its own condition. -/
theorem txEncodeRefusedSetsTheFlags : Obligations.TxEncodeRefusedSetsTheFlags := by
  intro s hr
  rw [← or_assoc, ← txBad_iff] at hr
  obtain ⟨hbad, hq, -⟩ | ⟨-, e⟩ := encodeTx_cases s
  · exact absurd hr (not_refused_of_accepted ⟨hbad, hq⟩)
  · simp only [exec_txEncode, e, txBad_iff, txBusy_iff]
    rfl

theorem popTx_of_empty {s : State} (hq : s.txq = []) : s.popTx = s := by
  rw [State.popTx, hq]

theorem popTx_of_cons {s : State} {b : Byte} {q : List Byte} (hq : s.txq = b :: q) :
    s.popTx = { s with txq := q, txStream := s.txStream ++ [b] } := by
  rw [State.popTx, hq]
  rfl

/-- Settles O29: TX_POP on each form of the queue. -/
theorem txPopEmitsTheHead : Obligations.TxPopEmitsTheHead :=
  ⟨fun _ _ _ hq => congrArg _ (popTx_of_cons hq), fun _ hq => congrArg _ (popTx_of_empty hq)⟩

/-! ### The reads of the serializer -/

theorem regTxStat_plen (s : State) : (regTxStat s).extractLsb' 0 8 = BitVec.ofNat 8 s.txp.length := by
  simp (disch := decide) only [regTxStat, BitVec.extractLsb'_or, extract_place_same, extract_place_other]
  simp [count8]

theorem regTxStat_qlevel (s : State) : (regTxStat s).extractLsb' 8 8 = BitVec.ofNat 8 s.txq.length := by
  simp (disch := decide) only [regTxStat, BitVec.extractLsb'_or, extract_place_same, extract_place_other]
  simp [count8]

theorem regTxStat_nonascii (s : State) : (regTxStat s).getLsbD 16 = s.txNonascii := by
  simp [regTxStat, bit]

theorem regTxStat_ovf (s : State) : (regTxStat s).getLsbD 17 = s.txOvf := by
  simp [regTxStat, bit]

theorem regTxStat_above (s : State) : (regTxStat s).extractLsb' 18 14 = 0 := by
  simp (disch := decide) only [regTxStat, BitVec.extractLsb'_or, extract_place_other]
  rfl

theorem regWindow_below {buf : List Byte} {k : Nat} (h : k < buf.length) :
    (regWindow buf k).toNat = (buf[k]).toNat := by
  rw [regWindow, place_zero_toNat (by decide), read_below _ _ h]

theorem regWindow_beyond {buf : List Byte} {k : Nat} (h : buf.length ≤ k) : regWindow buf k = 0 := by
  rw [regWindow, read_beyond _ _ h]
  rfl

/-- Settles O34: each field of the two words, and the window on either side of the valid length. -/
theorem serializerReads : Obligations.SerializerReads := fun s =>
  ⟨⟨regTxAddr s, rfl, place_zero_toNat (by decide) s.txAddr⟩,
    ⟨regTxStat s, rfl, regTxStat_plen s, regTxStat_qlevel s, regTxStat_nonascii s, regTxStat_ovf s,
      regTxStat_above s⟩,
    fun k => ⟨regWindow s.txp k, rfl, regWindow_below, regWindow_beyond⟩⟩

/-! ### The serializer and the receive side -/

/-- The state with FR_STATE, `rxbuf`, DEC and the framer flags of `r` (41_serializer.md R167). -/
def withFramerOf (r s : State) : State :=
  { s with
    frState := r.frState, rxbuf := r.rxbuf, dec := r.dec
    frComplete := r.frComplete, frTimedout := r.frTimedout, frOvf := r.frOvf, frStray := r.frStray }

theorem encodeTx_withFramerOf (r s : State) : (withFramerOf r s).encodeTx = withFramerOf r s.encodeTx := by
  unfold State.encodeTx
  rw [apply_ite (withFramerOf r)]
  simp only [refuseIf_frame]
  rfl

theorem popTx_withFramerOf (r s : State) : (withFramerOf r s).popTx = withFramerOf r s.popTx := by
  obtain ⟨hq, e⟩ | ⟨b, q, hq, e⟩ := popTx_cases s <;> rw [e]
  · exact popTx_of_empty hq
  · exact popTx_of_cons hq

/-- A TX operation does the same whatever the receive side holds, and leaves that as it is. -/
theorem exec_withFramerOf {i : Instr}
    (hi : i = .txClr ∨ i = .txEncode ∨ i = .txPop ∨ (∃ a, i = .txSetaddr a) ∨ (∃ b, i = .txPush b))
    {s t : State} (h : exec i s = .next t) (r : State) : exec i (withFramerOf r s) = .next (withFramerOf r t) := by
  obtain rfl | rfl | rfl | ⟨a, rfl⟩ | ⟨b, rfl⟩ := hi <;> cases h
  case inr.inl => exact congrArg _ (encodeTx_withFramerOf r s)
  case inr.inr.inl => exact congrArg _ (popTx_withFramerOf r s)
  all_goals rfl

/-- Settles O31: the values put in are those of a state. -/
theorem serializerIndependentOfFramer : Obligations.SerializerIndependentOfFramer :=
  fun _ s _ f buf d c o x y hi h => exec_withFramerOf hi h { s with
    frState := f, rxbuf := buf, dec := d, frComplete := c, frTimedout := o, frOvf := x, frStray := y }

/-! ### What is emitted and queued -/

/-- No other operation adds to the emitted and the queued bytes or takes from them: a popped byte goes from the queue to
the stream (41_serializer.md R170). -/
theorem transmitted_kept_of_effect {i : Instr} {s t : State} (h : Effect i s t) (hreset : i ≠ .blkReset)
    (henc : i ≠ .txEncode) : t.txStream ++ t.txq = s.txStream ++ s.txq := by
  cases h with
  | blkReset => exact absurd rfl hreset
  | txEncode | txEncodeRefused => exact absurd rfl henc
  | txPop b q hq => rw [hq, List.append_assoc, List.singleton_append]
  | _ => rfl

/-- The emitted and the queued bytes together grow by the frame of a TX_ENCODE that is not refused, and stay as they are
under everything else (41_serializer.md R165, R166, R170). -/
theorem transmitted_of_exec {i : Instr} {s t : State} (h : exec i s = .next t) (hreset : i ≠ .blkReset) :
    ((i = .txEncode ∧ txBad s = false ∧ s.txq = []) ∧
      t.txStream ++ t.txq = s.txStream ++ s.txq ++ encodeFrame s.txAddr s.txp) ∨
    (¬ (i = .txEncode ∧ txBad s = false ∧ s.txq = []) ∧ t.txStream ++ t.txq = s.txStream ++ s.txq) := by
  by_cases henc : i = .txEncode
  · subst henc
    cases h
    obtain ⟨hbad, hq, e⟩ | ⟨hr, e⟩ := encodeTx_cases s <;> rw [e]
    · exact .inl ⟨⟨rfl, hbad, hq⟩, by rw [hq, List.append_nil]⟩
    · exact .inr ⟨fun hacc => not_refused_of_accepted hacc.2 hr, rfl⟩
  · exact .inr ⟨fun hacc => henc hacc.1, transmitted_kept_of_effect (effect_of_exec h) hreset henc⟩

/-- Settles O32: the bytes added are those of the frame or none, by the condition of R166. -/
theorem transmitStreamGrowsByFrames : Obligations.TransmitStreamGrowsByFrames := by
  intro i s t h hreset
  simp only [← and_assoc (b := s.txOvf = false), ← txBad_eq_false_iff]
  obtain ⟨hacc, e⟩ | ⟨hno, e⟩ := transmitted_of_exec h hreset
  · rw [if_pos hacc, e]
  · rw [if_neg hno, e, List.append_nil]

/-- Under the invariant what TX_ENCODE queues is a request frame (10_state.md R50 item 2). -/
theorem requestFrame_of_inv {s : State} (hi : Inv s) : RequestFrame (encodeFrame s.txAddr s.txp) :=
  ⟨s.txAddr, s.txp, hi.txpAscii, hi.txpFits, rfl⟩

theorem wholeFrames_of_frame_added {s t : State} (hs : WholeFrames s) {f : List Byte} (hf : RequestFrame f)
    (e : t.txStream ++ t.txq = s.txStream ++ s.txq ++ f) : WholeFrames t := by
  obtain ⟨fs, hfs, hflat⟩ := hs
  refine ⟨fs ++ [f], fun g hg => ?_, by rw [e, hflat, List.flatten_append, List.flatten_singleton]⟩
  obtain hg | hg := List.mem_append.mp hg
  · exact hfs g hg
  · rwa [List.mem_singleton.mp hg]

/-- Settles O33: the bytes added are none or one request frame. -/
theorem transmitStreamIsWholeFrames : Obligations.TransmitStreamIsWholeFrames := by
  intro i s t hinv hs hreset h
  obtain ⟨-, e⟩ | ⟨-, e⟩ := transmitted_of_exec h hreset
  · exact wholeFrames_of_frame_added hs (requestFrame_of_inv hinv) e
  · rwa [WholeFrames, e]

end Sys2Proof.Proofs
end

section
/-! PROOFS. The frame deserializer (42_deserializer.md): the record of each shape a byte sequence can have, field by
field; what bytes added at the end do to it; the operations on the receive buffer; and the reads of the result. -/

namespace Sys2Proof.Proofs

open Sys2Proof Sys2Proof.Machine

/-! ### The failures of the echo section -/

theorem decodeFrame_echo_short (map : Byte → Byte) {s : List Byte} (h : s.length < 5) :
    decodeFrame map s = Dec.ofEmpty := by
  rw [decodeFrame, if_pos h, Dec.ofEmpty]

section
variable {map : Byte → Byte} {a c st x r : Byte}

/-- An unrecognized status is reported before the trailer is looked at (42_deserializer.md R199, R200). -/
theorem decodeFrame_bad_status (hst : map st = 0) (rest : List Byte) :
    decodeFrame map (a :: c :: st :: x :: r :: rest) = { Dec.zero with
      verdict := .errStatus, eAddr := a, eCmd := c, eStatus := st, eRsvd := x
      eComp := csum [a, c, st, x], eRcvd := r } := by
  obtain ⟨hshort, -⟩ | ⟨-, -, h⟩ | ⟨-, hst', -⟩ | ⟨-, hst', -⟩ :=
    decodeFrame_cases map (a :: c :: st :: x :: r :: rest)
  · exact absurd hshort (Nat.not_lt.mpr (Nat.le_add_left 5 rest.length))
  · have hsid : map (Memory.read (a :: c :: st :: x :: r :: rest) 2) = 0 := hst
    rw [h, echoFields, hsid]
    rfl
  · exact absurd hst hst'
  · exact absurd hst hst'

theorem decodeFrame_bad_echo_trailer (hst : map st ≠ 0) (hr : r ≠ wireLow (csum [a, c, st, x])) (rest : List Byte) :
    decodeFrame map (a :: c :: st :: x :: r :: rest) = { Dec.zero with
      verdict := .errCsum, eAddr := a, eCmd := c, eStatus := st, eRsvd := x
      eComp := csum [a, c, st, x], eRcvd := r, sid := map st } := by
  obtain ⟨hshort, -⟩ | ⟨-, hst', -⟩ | ⟨-, -, -, h⟩ | ⟨-, -, hmatch, -⟩ :=
    decodeFrame_cases map (a :: c :: st :: x :: r :: rest)
  · exact absurd hshort (Nat.not_lt.mpr (Nat.le_add_left 5 rest.length))
  · exact absurd hst' hst
  · exact h
  · exact absurd ((trailerMatches_iff _ _).mp hmatch) hr

end

/-- A received byte is the encoding of a checksum exactly where the values are equal (30_encoding.md R100). -/
theorem eq_wireLow_iff (r : Byte) (comp : BitVec 7) : r = wireLow comp ↔ r.toNat = comp.toNat := by
  rw [← BitVec.toNat_inj, wireLow_toNat]

/-- Settles O38: the three failures, the mismatch of the trailer by the values of its two sides. -/
theorem echoStepVerdicts : Obligations.EchoStepVerdicts := by
  intro map a c st x r rest s
  refine ⟨decodeFrame_echo_short map, fun hst => decodeFrame_bad_status hst rest, fun hst hr => ?mismatch⟩
  case mismatch =>
    refine decodeFrame_bad_echo_trailer hst (fun heq => hr ?_) rest
    rw [(eq_wireLow_iff r _).mp heq, csum_toNat]
    simp [Nat.add_assoc]

/-! ### The data section -/

/-- Settles O39: after the echo section, a header cut short, no terminator, and nothing after the terminator. -/
theorem incompleteDataSectionVerdicts : Obligations.IncompleteDataSectionVerdicts :=
  fun _ _ he => ⟨decodeFrame_header_short he, fun _ c _ hp => decodeFrame_no_terminator he hp c,
    fun _ c _ hp => decodeFrame_no_trailer he hp c⟩

/-- Settles O40: the trailer is the encoding of the checksum exactly where their values are equal. -/
theorem dataTrailerVerdicts : Obligations.DataTrailerVerdicts := by
  intro map e he a c r p rest hp
  simp only [decodeFrame_trailer he hp, eq_wireLow_iff]
  rfl

/-- The record of an echo section and a data section, with whatever follows. -/
theorem decodeFrame_of_dataSection {map : Byte → Byte} {e p d : List Byte} {a c : Byte} (he : EchoSection map e)
    (hd : DataSection a c p d) (rest : List Byte) :
    decodeFrame map (e ++ d ++ rest) = { echoFields map e with
      verdict := .okEchoData, echoOk := true, dataOk := true
      consumed := count8 (9 + p.length), trailing := decide (rest ≠ [])
      dAddr := a, dCmd := c, dTerm := count8 (7 + p.length), dPlen := count8 p.length
      dComp := csum ([a, c] ++ p ++ [a]), dRcvd := wireLow (csum ([a, c] ++ p ++ [a])) } := by
  obtain ⟨hp, rfl⟩ := hd
  have hsplit : e ++ ([a, c] ++ p ++ [a] ++ [(csum ([a, c] ++ p ++ [a])).setWidth 8]) ++ rest
      = e ++ [a, c] ++ p ++ [a, wireLow (csum ([a, c] ++ p ++ [a]))] ++ rest := by simp [wireLow]
  rw [hsplit, decodeFrame_trailer he hp, if_pos rfl]

theorem length_of_dataSection {a c : Byte} {p d : List Byte} (hd : DataSection a c p d) :
    d.length = p.length + 4 := by
  obtain ⟨-, rfl⟩ := hd
  simp

/-- The payload lies behind the five bytes of the echo section and the two of the data header. -/
theorem getElem_payload {map : Byte → Byte} {e p d : List Byte} {a c : Byte} (he : EchoSection map e)
    (hd : DataSection a c p d) {k : Nat} (hk : k < p.length) (h : 7 + k < (e ++ d).length) :
    (e ++ d)[7 + k] = p[k] := by
  obtain ⟨b₀, b₁, b₂, b₃, -, rfl⟩ := he
  obtain ⟨-, rfl⟩ := hd
  simp [Nat.add_comm 7 k, List.getElem_append_left hk]

theorem count8_toNat {n : Nat} (h : n ≤ Config.rxCap) : (count8 n).toNat = n :=
  (BitVec.toNat_ofNat n 8).trans (Nat.mod_eq_of_lt (Nat.lt_succ_of_le h))

/-- Settles O43: the record of the two sections with nothing after them; the counts fit their bytes as the sections fit
the buffer. -/
theorem dataRoundTrip : Obligations.DataRoundTrip := by
  intro map e p d a c he hd hfits
  have hlen : (e ++ d).length = 9 + p.length := by
    rw [List.length_append, length_of_echoSection he, length_of_dataSection hd]
    omega
  rw [hlen] at hfits
  have hrec := decodeFrame_of_dataSection he hd []
  rw [List.append_nil] at hrec
  rw [hrec]
  refine ⟨rfl, count8_toNat (by omega), count8_toNat (by omega), count8_toNat hfits, rfl, fun s k hk hbuf => ?window⟩
  case window =>
    have hbelow : 7 + k < (e ++ d).length := by omega
    refine ⟨regWindow s.rxbuf (7 + k), rfl, ?_⟩
    rw [hbuf, regWindow_below hbelow, getElem_payload he hd hk hbelow]

/-- The address byte of a logical address, its marker set or clear, has the address in its low seven bits. -/
theorem low7_of_address {a : BitVec 7} {b : Byte} (hb : b = 0x80#8 ||| a.setWidth 8 ∨ b = a.setWidth 8) :
    low7 b = a := by
  obtain rfl | rfl := hb
  · exact low7_wireAddr a
  · exact low7_wireLow a

/-- Settles O42: the five bytes are a valid echo section, and its fields are its bytes. -/
theorem echoRoundTrip : Obligations.EchoRoundTrip := by
  intro map a b0 c st x hst hb
  have he : EchoSection map [b0, c, st, x, (csum [b0, c, st, x]).setWidth 8] := ⟨b0, c, st, x, hst, rfl⟩
  rw [decodeFrame_echo_alone he]
  exact ⟨rfl, low7_of_address hb, rfl, rfl, rfl⟩

/-! ### Bytes added at the end -/

/-- Step 1 of `Decode` fails in one of three ways, or passes on a valid echo section (42_deserializer.md R196). -/
theorem echo_shapes (map : Byte → Byte) (s : List Byte) :
    s.length < 5 ∨
    (∃ a c st x r rest, s = a :: c :: st :: x :: r :: rest ∧
      (map st = 0 ∨ map st ≠ 0 ∧ r ≠ wireLow (csum [a, c, st, x]))) ∨
    ∃ e t, s = e ++ t ∧ EchoSection map e := by
  match s with
  | [] | [_] | [_, _] | [_, _, _] | [_, _, _, _] => exact .inl (by simp)
  | a :: c :: st :: x :: r :: rest =>
    refine .inr ?_
    by_cases hst : map st = 0
    · exact .inl ⟨a, c, st, x, r, rest, rfl, .inl hst⟩
    · by_cases hr : r = wireLow (csum [a, c, st, x])
      · exact .inr ⟨[a, c, st, x, r], rest, rfl, a, c, st, x, hst, by rw [hr]; rfl⟩
      · exact .inl ⟨a, c, st, x, r, rest, rfl, .inr ⟨hst, hr⟩⟩

/-- A response may still change with further bytes, or is rejected for good, or is accepted with only `trailing` to come
(42_deserializer.md R208). -/
theorem extension_cases (map : Byte → Byte) (s : List Byte) :
    ((decodeFrame map s).verdict = .okEcho ∨ (decodeFrame map s).verdict = .errMalformed) ∨
    (((decodeFrame map s).verdict = .errStatus ∨ (decodeFrame map s).verdict = .errCsum) ∧
      ∀ more, decodeFrame map (s ++ more) = decodeFrame map s) ∨
    ((decodeFrame map s).verdict = .okEchoData ∧
      ∀ more ≠ [], decodeFrame map (s ++ more) = { decodeFrame map s with trailing := true }) := by
  obtain hshort | ⟨a, c, st, x, r, rest, rfl, hst | ⟨hst, hr⟩⟩ | ⟨e, t, rfl, he⟩ := echo_shapes map s
  · rw [decodeFrame_echo_short map hshort]
    exact .inl (.inr rfl)
  · rw [decodeFrame_bad_status hst]
    exact .inr (.inl ⟨.inl rfl, fun more => decodeFrame_bad_status hst (rest ++ more)⟩)
  · rw [decodeFrame_bad_echo_trailer hst hr]
    exact .inr (.inl ⟨.inr rfl, fun more => decodeFrame_bad_echo_trailer hst hr (rest ++ more)⟩)
  · obtain rfl | ⟨a, rfl⟩ | ⟨a, c, p, hp, rfl | rfl | ⟨r, rest, rfl⟩⟩ := data_shapes t
    · rw [List.append_nil, decodeFrame_echo_alone he]
      exact .inl (.inl rfl)
    · rw [decodeFrame_header_short he]
      exact .inl (.inr rfl)
    · rw [← List.append_assoc, decodeFrame_no_terminator he hp]
      exact .inl (.inr rfl)
    · rw [← List.append_assoc, ← List.append_assoc, decodeFrame_no_trailer he hp]
      exact .inl (.inr rfl)
    · have hsplit : e ++ ([a, c] ++ p ++ [a, r] ++ rest) = e ++ [a, c] ++ p ++ [a, r] ++ rest := by simp
      rw [hsplit]
      have hrec (u : List Byte) := decodeFrame_trailer he hp c r u
      by_cases hr : r = wireLow (csum ([a, c] ++ p ++ [a]))
      · simp only [if_pos hr] at hrec
        refine .inr (.inr ⟨by rw [hrec], fun more hmore => ?_⟩)
        rw [List.append_assoc _ rest, hrec, hrec, decide_eq_true (List.append_ne_nil_of_right_ne_nil rest hmore)]
      · simp only [if_neg hr] at hrec
        exact .inr (.inl ⟨.inr (by rw [hrec]), fun more => by rw [List.append_assoc _ rest, hrec, hrec]⟩)

/-- Settles O44: of the three cases of `extension_cases` the verdict leaves one. -/
theorem verdictsUnderExtension : Obligations.VerdictsUnderExtension := by
  intro map s more hmore
  obtain hv | ⟨hv, hext⟩ | ⟨hv, hext⟩ := extension_cases map s
  · obtain hv | hv := hv <;> rw [hv] <;> exact ⟨nofun, nofun⟩
  · refine ⟨fun _ => hext more, fun hok => ?_⟩
    obtain hv | hv := hv <;> cases hok.symm.trans hv
  · exact ⟨by rw [hv]; exact nofun, fun _ => hext more hmore⟩

/-! ### The operations on the receive buffer -/

theorem exec_rxPush_idle {s : State} (hf : s.frState = .idle) (b : Byte) :
    exec (.rxPush b) s = .next (s.pushRx b) := by
  have hgated : exec (.rxPush b) s = .next (s.gated .rxPush (fun s => s.pushRx b)) := rfl
  rw [hgated, State.gated, hf, admitted_idle, if_pos rfl]

/-- Settles O36: the row of RX_PUSH, and the two outcomes of the push by the room left. -/
theorem rxPushStoresOrOverflows : Obligations.RxPushStoresOrOverflows := by
  refine ⟨registerWrite_of_mem (l := .rxPush) (by decide) fun _ => rfl, fun s b hf => ?_⟩
  rw [exec_rxPush_idle hf]
  obtain ⟨hroom, e⟩ | ⟨hfull, e⟩ := pushRx_cases s b <;> rw [e]
  · exact ⟨fun _ => rfl, fun h => absurd h (Nat.ne_of_lt hroom)⟩
  · exact ⟨fun h => absurd h (Nat.not_lt_of_le hfull), fun _ => rfl⟩

/-- Settles O37: the rows of the two commands, and their effects where no attempt runs; the empty buffer decodes to the
record of reset. -/
theorem rxClrAndRxDecode : Obligations.RxClrAndRxDecode :=
  ⟨commandCode_of_mem (p := (0x20, .rxClr)) (by decide), commandCode_of_mem (p := (0x21, .rxDecode)) (by decide),
    fun _ hf => ⟨congrArg _ (gated_of_not_accum hf (by decide) _), congrArg _ (gated_of_not_accum hf (by decide) _)⟩⟩

/-! ### The reads of the decode result -/

theorem regDecStat_fields (d : Dec) :
    (regDecStat d).extractLsb' 0 3 = verdictCode d.verdict ∧ (regDecStat d).extractLsb' 4 3 = reasonCode d.reason ∧
    (regDecStat d).extractLsb' 16 8 = d.consumed := by
  refine ⟨?_, ?_, ?_⟩ <;>
  · simp (disch := decide) only [regDecStat, BitVec.extractLsb'_or, extract_place_same, extract_place_other]
    simp

theorem regDecStat_flags (d : Dec) :
    (regDecStat d).getLsbD 8 = d.sect ∧ (regDecStat d).getLsbD 9 = d.echoOk ∧
    (regDecStat d).getLsbD 10 = d.dataOk ∧ (regDecStat d).getLsbD 11 = d.trailing := by
  simp [regDecStat, bit]

theorem regDecStat_zeros (d : Dec) :
    (regDecStat d).getLsbD 3 = false ∧ (regDecStat d).getLsbD 7 = false ∧
    (regDecStat d).extractLsb' 12 4 = 0 ∧ (regDecStat d).extractLsb' 24 8 = 0 := by
  refine ⟨?_, ?_, ?_, ?_⟩
  · simp [regDecStat]
  · simp [regDecStat]
  · simp (disch := decide) only [regDecStat, BitVec.extractLsb'_or, extract_place_other]
    rfl
  · simp (disch := decide) only [regDecStat, BitVec.extractLsb'_or, extract_place_other]
    rfl

/-- A word of four byte fields, each at its eight bits. -/
theorem bytes_of_word (b₀ b₁ b₂ b₃ : Byte) :
    let w := place 0 b₀ ||| place 8 b₁ ||| place 16 b₂ ||| place 24 b₃
    w.extractLsb' 0 8 = b₀ ∧ w.extractLsb' 8 8 = b₁ ∧ w.extractLsb' 16 8 = b₂ ∧ w.extractLsb' 24 8 = b₃ := by
  simp (disch := decide) [BitVec.extractLsb'_or, extract_place_same, extract_place_other]

theorem regDecEcho2_fields (d : Dec) :
    (regDecEcho2 d).extractLsb' 0 7 = d.eComp ∧ (regDecEcho2 d).getLsbD 7 = false ∧
    (regDecEcho2 d).extractLsb' 8 8 = d.eRcvd ∧ (regDecEcho2 d).extractLsb' 16 8 = d.sid ∧
    (regDecEcho2 d).extractLsb' 24 8 = 0 := by
  refine ⟨?_, by simp [regDecEcho2], ?_, ?_, ?_⟩ <;>
  · simp (disch := decide) only [regDecEcho2, BitVec.extractLsb'_or, extract_place_same, extract_place_other]
    simp

theorem regDecData2_fields (d : Dec) :
    (regDecData2 d).extractLsb' 0 7 = d.dComp ∧ (regDecData2 d).getLsbD 7 = false ∧
    (regDecData2 d).extractLsb' 8 8 = d.dRcvd ∧ (regDecData2 d).extractLsb' 16 16 = 0 := by
  refine ⟨?_, by simp [regDecData2], ?_, ?_⟩ <;>
  · simp (disch := decide) only [regDecData2, BitVec.extractLsb'_or, extract_place_same, extract_place_other]
    simp

/-- Settles O46: the fields of the five words, and the window on either side of the valid length. -/
theorem decodeResultReads : Obligations.DecodeResultReads := by
  intro s
  refine ⟨⟨regDecStat s.dec, rfl, ?stat⟩, ⟨regDecEcho s.dec, rfl, bytes_of_word _ _ _ _⟩,
    ⟨regDecEcho2 s.dec, rfl, regDecEcho2_fields s.dec⟩, ⟨regDecData s.dec, rfl, bytes_of_word _ _ _ _⟩,
    ⟨regDecData2 s.dec, rfl, regDecData2_fields s.dec⟩,
    fun k => ⟨regWindow s.rxbuf k, rfl, regWindow_below, regWindow_beyond⟩⟩
  case stat =>
    obtain ⟨hverdict, hreason, hconsumed⟩ := regDecStat_fields s.dec
    obtain ⟨hsect, hecho, hdata, htrailing⟩ := regDecStat_flags s.dec
    exact ⟨hverdict, hreason, hsect, hecho, hdata, htrailing, hconsumed, regDecStat_zeros s.dec⟩

end Sys2Proof.Proofs
end

section
/-! PROOFS. The byte-stream framer (43_framer.md): the gating table, each operation of the framer by its equation, how
FR_STATE moves, what ends an attempt and when, what leaves a running and a finished attempt alone, and the reads. -/

namespace Sys2Proof.Proofs

open Sys2Proof Sys2Proof.Machine

/-! ### The gating table -/

/-- No gated operation is performed while an attempt runs (43_framer.md R245). -/
theorem gated_of_accum {s : State} (hf : s.frState = .accum) (g : Gated) (f : State → State) :
    s.gated g f = s.refuse .badstate := by
  rw [State.gated, hf, admitted_accum, if_neg Bool.false_ne_true]

/-- Settles O35: RX_PUSH is admitted in IDLE alone, the other gated writes not in ACCUM. -/
theorem gatedWritesRefused : Obligations.GatedWritesRefused := by
  refine ⟨fun s b hf => ?push, fun s i hf hi => ?attempt⟩
  case push =>
    obtain ⟨hidle, -⟩ | ⟨-, e⟩ := gated_rxPush_cases s (fun s => s.pushRx b)
    · exact absurd hidle hf
    · exact congrArg _ e
  case attempt =>
    obtain rfl | rfl | rfl | ⟨e, rfl⟩ | ⟨v, rfl⟩ := hi <;> exact congrArg _ (gated_of_accum hf _ _)

/-! ### The operations of the framer -/

theorem exec_frStart {s : State} (hf : s.frState ≠ .accum) : exec .frStart s = .next s.startAttempt :=
  congrArg _ (gated_of_not_accum hf (by decide) _)

/-- Settles O47: the row of FR_START, and the state it answers where no attempt runs; the empty buffer decodes to the
record of reset. -/
theorem frStartBeginsAnAttempt : Obligations.FrStartBeginsAnAttempt := by
  refine ⟨commandCode_of_mem (p := (0x22, .frStart)) (by decide), fun s hf => ?_⟩
  have htimedout : (if s.frTimeout = 0 then true else false) = decide (s.frTimeout = 0) := by simp
  rw [exec_frStart hf, htimedout]
  rfl

/-- Settles O48: the rows of FR_CTRL and FR_TIMEOUT, and the two states they answer where no attempt runs. -/
theorem framerSettings : Obligations.FramerSettings :=
  ⟨registerWrite_of_mem (l := .frCtrl) (by decide) fun _ => rfl,
    registerWrite_of_mem (l := .frTimeout) (by decide) fun _ => rfl,
    fun _ hf => ⟨fun _ => congrArg _ (gated_of_not_accum hf (by decide) _),
      fun _ => congrArg _ (gated_of_not_accum hf (by decide) _)⟩⟩

/-- The completion predicate, by verdict (43_framer.md R232). -/
theorem complete_iff (r : Dec) (e : Bool) :
    complete r e = true ↔ r.verdict = .okEchoData ∨ (r.verdict = .okEcho ∧ e = false) := by
  simp [complete]

/-- What a stored byte leaves, by the completion predicate (43_framer.md R236). -/
theorem receive_stored {i : Instr} {s : State} {b : Byte} (hs : stores i s b) :
    s.receive b = { s with
      rxStream := s.rxStream ++ [b], rxbuf := s.rxbuf ++ [b], dec := decodeRx (s.rxbuf ++ [b])
      frState := if complete (decodeRx (s.rxbuf ++ [b])) s.expectData then .done else .accum
      frComplete := if complete (decodeRx (s.rxbuf ++ [b])) s.expectData then true else s.frComplete } := by
  have hbuf : Memory.append s.rxbuf b = s.rxbuf ++ [b] := rfl
  have ⟨_, hf, _⟩ := hs
  rw [receive_of_stores hs]
  obtain ⟨hc, e⟩ | ⟨hc, e⟩ := storeRx_cases s b <;> rw [hbuf] at hc e <;> rw [e, hc]
  · rfl
  · rw [if_neg Bool.false_ne_true, if_neg Bool.false_ne_true, ← hf]

/-- Settles O49: a byte is stored, dropped from a full buffer or stray, by the state and the room left. -/
theorem rxByteStoresOrDrops : Obligations.RxByteStoresOrDrops := by
  intro s b
  have hexec : exec (.rxByte b) s = .next (s.receive b) := rfl
  rw [hexec]
  refine ⟨fun hf hl => ?stored, fun hf hfull => ?dropped, fun hf => ?stray⟩
  case stored =>
    rw [receive_stored (i := .rxByte b) ⟨rfl, hf, hl⟩]
    simp only [complete_iff]
  case dropped =>
    obtain ⟨-, hl, -⟩ | ⟨-, -, e⟩ | ⟨hno, -⟩ := acceptRx_cases s b
    · exact absurd hfull (Nat.ne_of_lt hl)
    · rw [receive_eq, e]
    · exact absurd hf hno
  case stray =>
    obtain ⟨hacc, -⟩ | ⟨hacc, -⟩ | ⟨-, e⟩ := acceptRx_cases s b
    · exact absurd hacc hf
    · exact absurd hacc hf
    · rw [receive_eq, e]

theorem exec_tick_before_last {s : State} (hf : s.frState = .accum) (hr : s.frRemain ≠ 1) :
    exec .tick s = .next { s with frRemain := s.frRemain - 1 } := by
  obtain ⟨hno, -⟩ | ⟨-, hlast, -⟩ | ⟨-, -, e⟩ := tickDown_cases s
  · exact absurd hf hno
  · exact absurd hlast hr
  · exact congrArg _ e

theorem exec_tick_last {s : State} (hf : s.frState = .accum) (hr : s.frRemain = 1) :
    exec .tick s = .next { s with frRemain := 0, frState := .done, frTimedout := true } := by
  obtain ⟨hno, -⟩ | ⟨-, -, e⟩ | ⟨-, hmore, -⟩ := tickDown_cases s
  · exact absurd hf hno
  · exact congrArg _ e
  · exact absurd hr hmore

theorem exec_tick_outside {s : State} (hf : s.frState ≠ .accum) : exec .tick s = .next s := by
  obtain ⟨-, e⟩ | ⟨hacc, -⟩ | ⟨hacc, -⟩ := tickDown_cases s
  · exact congrArg _ e
  · exact absurd hacc hf
  · exact absurd hacc hf

/-- Settles O51: the ticks of an attempt before its last, the last one, and those outside an attempt. -/
theorem tickCountsDown : Obligations.TickCountsDown := by
  refine fun s => ⟨fun hf hr => exec_tick_before_last hf ?more, exec_tick_last, exec_tick_outside⟩
  case more =>
    intro hlast
    simp [hlast] at hr

/-! ### The deadline of an attempt -/

/-- As long as fewer ticks arrive than remain, they count down and nothing else changes (43_framer.md R238). -/
theorem execAll_ticks_before_last {n : Nat} {s : State} (hf : s.frState = .accum) (hn : n < s.frRemain.toNat) :
    execAll (List.replicate n .tick) s = .next { s with frRemain := s.frRemain - BitVec.ofNat 32 n } := by
  induction n generalizing s with
  | zero => rw [List.replicate_zero, execAll, BitVec.sub_zero]
  | succ n ih =>
    have hmore : s.frRemain ≠ 1 := by
      intro hlast
      simp [hlast] at hn
    have hleft : n < (s.frRemain - 1).toNat := by bv_omega
    have hcount : s.frRemain - 1 - BitVec.ofNat 32 n = s.frRemain - BitVec.ofNat 32 (n + 1) := by bv_omega
    have hrest := ih (s := { s with frRemain := s.frRemain - 1 }) hf hleft
    rw [hcount] at hrest
    rw [List.replicate_succ, execAll_cons_of_next (exec_tick_before_last hf hmore), hrest]

/-- As many ticks as remain time the attempt out (43_framer.md R238, R243). -/
theorem execAll_ticks_to_last {n : Nat} {s : State} (hf : s.frState = .accum) (hn : s.frRemain.toNat = n + 1) :
    execAll (List.replicate (n + 1) .tick) s
      = .next { s with frRemain := 0, frState := .done, frTimedout := true } := by
  have hrun : execAll (List.replicate n .tick) s = .next { s with frRemain := s.frRemain - BitVec.ofNat 32 n } :=
    execAll_ticks_before_last hf (by omega)
  have hlast : s.frRemain - BitVec.ofNat 32 n = 1 := by bv_omega
  have htick := exec_tick_last (s := { s with frRemain := s.frRemain - BitVec.ofNat 32 n }) hf hlast
  rw [List.replicate_succ', execAll_append_of_next hrun, execAll_cons_of_next htick, execAll]

/-- Settles O52: the attempt begins with its whole budget remaining, and then only ticks arrive. -/
theorem attemptTimesOutAtItsBudget : Obligations.AttemptTimesOutAtItsBudget := by
  intro s n hf hbudget hn
  have hne : s.frTimeout ≠ 0 := by
    intro h0
    simp [h0] at hbudget
  have hacc : s.startAttempt.frState = .accum := if_neg hne
  have hno : s.startAttempt.frTimedout = false := decide_eq_false hne
  rw [execAll_cons_of_next (exec_frStart hf)]
  obtain hlt | rfl := Nat.lt_or_eq_of_le hn
  · refine ⟨_, execAll_ticks_before_last hacc hlt, ?_, fun _ => ⟨hacc, hno, rfl⟩, fun h => absurd h (Nat.ne_of_lt hlt)⟩
    rw [startAttempt_frRemain]
    bv_omega
  · obtain ⟨m, hm⟩ := Nat.exists_eq_add_of_le' hbudget
    rw [hm]
    exact ⟨_, execAll_ticks_to_last hacc hm, by simp, fun h => absurd h (Nat.lt_irrefl _), fun _ => ⟨rfl, rfl, rfl⟩⟩

/-! ### The transitions of FR_STATE -/

/-- A change of FR_STATE is one of R231's (43_framer.md R231). -/
theorem frState_changed_of_effect {i : Instr} {s t : State} (h : Effect i s t) (hne : t.frState ≠ s.frState) :
    (i = .frStart ∧ s.frState ≠ .accum) ∨
    (∃ b, stores i s b ∧ complete (decodeRx (s.rxbuf ++ [b])) s.expectData = true) ∨
    (i = .tick ∧ s.frState = .accum ∧ s.frRemain = 1) ∨
    (i = .rxClr ∧ s.frState ≠ .accum) ∨ i = .blkReset := by
  cases h with
  | frStart hf => exact .inl ⟨rfl, hf⟩
  | rxCompleted b hs hc => exact .inr (.inl ⟨b, hs, hc⟩)
  | tickLast hf hr => exact .inr (.inr (.inl ⟨rfl, hf, hr⟩))
  | rxClr hf => exact .inr (.inr (.inr (.inl ⟨rfl, hf⟩)))
  | blkReset => exact .inr (.inr (.inr (.inr rfl)))
  | _ => exact absurd rfl hne

/-- Settles O53: each row of R231 by the equation of its operation, and the converse by a split over the effects. -/
theorem framerTransitionsExactly : Obligations.FramerTransitionsExactly := by
  refine ⟨fun i s t h => ⟨?started, ?noBudget, ?stored, ?timedOut, ?cleared, ?blkReset,
    frState_changed_of_effect (effect_of_exec h)⟩, fun s rest hp => ⟨_, step_of_reset_asserted hp, rfl⟩⟩
  case started =>
    rintro rfl hf hbudget
    cases (exec_frStart hf).symm.trans h
    exact if_neg hbudget
  case noBudget =>
    rintro rfl hf hbudget
    cases (exec_frStart hf).symm.trans h
    exact ⟨if_pos hbudget, decide_eq_true hbudget⟩
  case stored =>
    intro b hs
    have ⟨hd, _, _⟩ := hs
    cases (exec_delivered hd s).symm.trans h
    rw [receive_stored hs]
    refine ⟨rfl, ?_⟩
    cases complete (decodeRx (s.rxbuf ++ [b])) s.expectData <;> simp
  case timedOut =>
    rintro rfl hf hr
    cases (exec_tick_last hf hr).symm.trans h
    exact ⟨rfl, rfl⟩
  case cleared =>
    rintro rfl hf
    cases h
    rw [gated_of_not_accum hf (by decide), clearRx_frState]
  case blkReset =>
    rintro rfl
    cases h
    rfl

/-! ### What leaves an attempt alone -/

/-- The host delivers no byte and no tick: those are the operations of other agents (30_encoding.md R109, R110). -/
theorem host_delivers_nothing {i : Instr}
    (hi : i.row.format = .cmd ∨ i.row.format = .regw ∨ i.row.format = .regr) :
    i ≠ .tick ∧ delivered i = none := by
  cases i with
  | rxByte | tick | addrByte | csumByte | payloadByte => simp [Instr.row] at hi
  | _ => exact ⟨nofun, rfl⟩

/-- Settles O54: while an attempt runs only a byte, a tick and BLK_RESET touch the receive side; every host operation
that would is refused. -/
theorem hostCannotEndAnAttempt : Obligations.HostCannotEndAnAttempt := by
  intro i s t hacc hreset hhost h
  obtain ⟨hnotick, hnobyte⟩ := host_delivers_nothing hhost
  cases effect_of_exec h with
  | blkReset => exact absurd rfl hreset
  | rxPush b hf | rxPushFull b hf => cases hf.symm.trans hacc
  | rxClr hf | rxDecode hf | frStart hf | frSetctrl _ hf | frSettmo _ hf => exact absurd hacc hf
  | rxStored b hs | rxCompleted b hs =>
    obtain ⟨hd, -, -⟩ := hs
    cases hd.symm.trans hnobyte
  | rxDropped b hd | rxStray b hd => cases hd.symm.trans hnobyte
  | tick | tickLast => exact absurd rfl hnotick
  | _ => exact ⟨hacc, rfl, rfl, rfl, rfl, rfl, rfl, rfl, rfl, rfl⟩

/-- Settles O55: in DONE a byte is stray and RX_PUSH refused, and RX_DECODE latches the decode that DEC already is. -/
theorem finishedAttemptIsStable : Obligations.FinishedAttemptIsStable := by
  intro i s t hinv hdone hstart hclr hreset h
  cases effect_of_exec h with
  | frStart => exact absurd rfl hstart
  | rxClr => exact absurd rfl hclr
  | blkReset => exact absurd rfl hreset
  | rxPush b hf | rxPushFull b hf | tick hf | tickLast hf | rxDropped b hd hf => cases hf.symm.trans hdone
  | rxStored b hs | rxCompleted b hs =>
    obtain ⟨-, hf, -⟩ := hs
    cases hf.symm.trans hdone
  | rxDecode =>
    have hdec : s.latchDec.dec = s.dec := (hinv.decCurrent (by simp [hdone])).symm
    exact ⟨hdone, rfl, hdec, rfl, rfl, rfl, rfl, fun hne => absurd rfl hne⟩
  | rxStray b hd => exact ⟨hdone, rfl, rfl, rfl, rfl, rfl, rfl, fun _ => ⟨rfl, b, hd⟩⟩
  | _ => exact ⟨hdone, rfl, rfl, rfl, rfl, rfl, rfl, fun hne => absurd rfl hne⟩

/-! ### The reads of the framer -/

theorem regFrCtrl_toNat (s : State) : (regFrCtrl s).toNat = s.expectData.toNat := by
  rw [regFrCtrl, place_zero_toNat (by decide), bit, BitVec.toNat_ofBool]

theorem regFrStat_state (s : State) : (regFrStat s).extractLsb' 0 2 = frStateCode s.frState := by
  simp (disch := decide) only [regFrStat, BitVec.extractLsb'_or, extract_place_same, extract_place_other]
  simp

theorem regFrStat_flags (s : State) :
    (regFrStat s).getLsbD 2 = s.frComplete ∧ (regFrStat s).getLsbD 3 = s.frTimedout ∧
    (regFrStat s).getLsbD 4 = s.frOvf ∧ (regFrStat s).getLsbD 5 = s.frStray := by
  simp [regFrStat, bit]

theorem regFrStat_rxlen (s : State) : (regFrStat s).extractLsb' 8 8 = BitVec.ofNat 8 s.rxbuf.length := by
  simp (disch := decide) only [regFrStat, BitVec.extractLsb'_or, extract_place_same, extract_place_other]
  simp [count8]

theorem regFrStat_zeros (s : State) :
    (regFrStat s).extractLsb' 6 2 = 0 ∧ (regFrStat s).extractLsb' 16 16 = 0 := by
  refine ⟨?_, ?_⟩ <;>
  · simp (disch := decide) only [regFrStat, BitVec.extractLsb'_or, extract_place_other]
    rfl

/-- Settles O56: each field of the two words that have fields, and the two registers that are words. -/
theorem framerReads : Obligations.FramerReads := by
  intro s
  obtain ⟨hcomplete, htimedout, hovf, hstray⟩ := regFrStat_flags s
  obtain ⟨hgap, habove⟩ := regFrStat_zeros s
  exact ⟨⟨regFrCtrl s, rfl, regFrCtrl_toNat s⟩, rfl, rfl, regFrStat s, rfl, regFrStat_state s, hcomplete, htimedout,
    hovf, hstray, hgap, regFrStat_rxlen s, habove⟩

end Sys2Proof.Proofs
end

section
/-! PROOFS. The system operations (44_system.md): a reserved command code, BLK_RESET, NOP and HERR_W1C. -/

namespace Sys2Proof.Proofs

open Sys2Proof Sys2Proof.Machine

/-- A rejected write leaves no more than its flag (20_memory.md R75 to R77, 44_system.md R262). -/
theorem step_of_rejected_write {s : State} {off : Offset} {v : Word} {rest : List Input} {r : Reject}
    (hp : s.pending = .op (.hostWrite off v) :: rest) (hr : s.resetLine = false)
    (hd : decode (.hostWrite off v) = .error r) :
    step s = .next { s with pending := rest, herr := s.herr ||| herrMask (rejectFlag r) } :=
  step_of_rejected hp hr hd

/-- Settles O10: the code is rejected as reserved, and the flag of that rejection is BADCMD. -/
theorem reservedCommandSetsOnlyBadcmd : Obligations.ReservedCommandSetsOnlyBadcmd := by
  intro s v rest hp hr hcode
  obtain ⟨-, -, -, hreserved⟩ := writesRejectedExactlyWhereNotWritable 0x004 v
  exact step_of_rejected_write hp hr (hreserved.mpr ⟨rfl, hcode⟩)

theorem exec_blkReset (s : State) : exec .blkReset s = .next s.blockReset := rfl

/-- Settles O15: what BLK_RESET answers is the reset state with the fields the block does not own put back. -/
theorem blkResetRestoresResetState : Obligations.BlkResetRestoresResetState :=
  exec_blkReset

/-- A flag stands after a clear exactly where it stood and the mask does not name it (44_system.md R266). -/
theorem clearHerr_getLsbD (s : State) (m : BitVec 5) {k : Nat} (hk : k < 5) :
    (s.clearHerr m).herr.getLsbD k = (s.herr.getLsbD k && !m.getLsbD k) := by
  rw [clearHerr_herr, BitVec.getLsbD_and, BitVec.getLsbD_not, decide_eq_true hk, Bool.true_and]

/-- Settles O16: the row of NOP and the row of HERR, and the two states they answer. -/
theorem nopAndHerrW1c : Obligations.NopAndHerrW1c :=
  ⟨commandCode_of_mem (p := (0x00, .nop)) (by decide), registerWrite_of_mem (l := .herr) (by decide) fun _ => rfl,
    fun s => ⟨rfl, fun m => ⟨(s.clearHerr m).herr, rfl, fun _ => clearHerr_getLsbD s m⟩⟩⟩

end Sys2Proof.Proofs
end

section
/-! PROOFS. Hardware reset (70_reset_and_hazards.md R320, R321): the step over an edge of the reset line, the step
over an operation masked by it, and the reset state held through every step while it is asserted. -/

namespace Sys2Proof.Proofs

open Sys2Proof Sys2Proof.Machine

/-! ### One step under hardware reset -/

/-- Releasing reset is no operation of the block: it moves the line alone (70_reset_and_hazards.md R321). -/
theorem step_of_reset_released {s : State} {rest : List Input} (h : s.pending = .reset false :: rest) :
    step s = .next { s with pending := rest, resetLine := false } := by
  apply step_of_fetch_handled
  simp only [fetch, h]

/-- An operation presented while reset is asserted is taken and not performed (70_reset_and_hazards.md R321). -/
theorem step_of_masked {s : State} {o : RawOp} {rest : List Input} (hp : s.pending = .op o :: rest)
    (hr : s.resetLine = true) : step s = .next { s with pending := rest } := by
  apply step_of_fetch_handled
  simp only [fetch, hp, hr, if_true]

/-- Settles O13: the two edges of the line, and an operation between them. -/
theorem hardwareResetAndItsMask : Obligations.HardwareResetAndItsMask :=
  ⟨fun _ _ => step_of_reset_asserted, fun _ _ _ => step_of_masked, fun _ _ => step_of_reset_released⟩

/-! ### The reset state is held -/

/-- A rejection, too, leaves the reset line (20_memory.md R75, R76). -/
@[simp] theorem rejectOp_resetLine (s : State) (o : RawOp) (r : Reject) : (s.rejectOp o r).resetLine = s.resetLine := by
  obtain ⟨-, e⟩ | ⟨-, e⟩ := rejectOp_cases s o r <;> rw [e]

theorem resetHeld_of_released {s : State} (h : s.resetLine = false) : ResetHeld s :=
  fun hr => absurd (h.symm.trans hr) nofun

theorem resetHeld_of_taken {s : State} (h : ResetHeld s) (rest : List Input) : ResetHeld { s with pending := rest } :=
  fun hr => congrArg (fun u : State => { u with pending := rest }) (h hr)

/-- Settles O14: an idle step changes nothing, the edge that asserts reset leaves the reset state, and an operation under it
only leaves the pending list; after any other step the line is released, by its edge or as it was. -/
theorem resetStateHeldWhileAsserted : Obligations.ResetStateHeldWhileAsserted := by
  intro s t hs hstep
  obtain ⟨-, hf⟩ | ⟨rest, hp, -⟩ | ⟨rest, hp, -⟩ | ⟨o, rest, hp, hr, -⟩ | ⟨o, rest, i, hp, hr, hd, -⟩ |
    ⟨o, rest, r, hp, hr, hd, -⟩ := fetch_cases s
  · cases (step_of_fetch_idle hf).symm.trans hstep
    exact hs
  · cases (step_of_reset_asserted hp).symm.trans hstep
    exact fun _ => rfl
  · cases (step_of_reset_released hp).symm.trans hstep
    exact resetHeld_of_released rfl
  · cases (step_of_masked hp hr).symm.trans hstep
    exact resetHeld_of_taken hs rest
  · rw [step_of_decoded hp hr hd] at hstep
    exact resetHeld_of_released ((resetLine_of_effect (effect_of_exec hstep)).trans hr)
  · cases (step_of_rejected hp hr hd).symm.trans hstep
    exact resetHeld_of_released ((rejectOp_resetLine _ o r).trans hr)

end Sys2Proof.Proofs
end
